-- ==== Sys2Proof/Word.lean ====
section
/-!
DEFINITION. The bit-vector widths of the block (spec/10_state.md section 1): every value is unsigned
(00_scope.md section 5.1) and has exactly the width the spec gives it.
-/

namespace Sys2Proof

/-- A byte of a buffer or of the wire (00_scope.md section 5.1). -/
abbrev Byte := BitVec 8

/-- A 15-bit remainder: `REM` and every entry of `TBL` (R17, R19; 90_conflicts.md C1). -/
abbrev Rem := BitVec 15

/-- A PEC as a 16-bit value, bit 0 always zero where the block computed it (R74, R76). -/
abbrev Pec := BitVec 16

/-- An 11-bit command code, opaque to the block (R11). -/
abbrev Cmd := BitVec 11

/-- The request register `LEN` (R11). -/
abbrev Len := BitVec 8

/-- The request register `NDEV` (R11). -/
abbrev NDev := BitVec 4

/-- The request register `OP` (R11, R58). -/
abbrev OpCode := BitVec 3

/-- The per-device error bitmask `ERRMASK` (R14). -/
abbrev Mask := BitVec 8

/-- The PEC15 table `TBL`: one 15-bit entry for each byte value (R17). -/
abbrev Table := Vector Rem 256

end Sys2Proof
end

