-- ==== Sys2Proof/Machine/Crc.lean ====
section
/-!
DEFINITION. The pure functions of the PEC15 generator (spec/40_pec15.md) and the segments built with
them (R52, R53, R90, R91). Each takes the table it looks entries up in.
-/

namespace Sys2Proof.Machine

/-- `POLY` (R4). -/
def poly : Rem := 0x4599#15

/-- `SEED` (R4). -/
def seed : Rem := 0x0010#15

/-- `STEP1(r)` (R71): shift left within 15 bits, and exclusive-or `POLY` if bit 14 was shifted out. -/
def step1 (r : Rem) : Rem := if r.getLsbD 14 then (r <<< 1) ^^^ poly else r <<< 1

/-- `n` applications of `STEP1`. -/
def stepTimes : Nat → Rem → Rem
  | 0, r => r
  | n + 1, r => stepTimes n (step1 r)

/-- `STEPS_PER_ENTRY` (R4). -/
def stepsPerEntry : Nat := 8

/-- The register a table entry starts from (R72): the byte in bits 14:7, bits 6:0 zero. -/
def entryStart (b : Byte) : Rem := (b.setWidth 15) <<< 7

/-- `TBL[b]` as `INIT` computes it (R72). -/
def tableEntry (b : Byte) : Rem := stepTimes stepsPerEntry (entryStart b)

/-- The 256 entries `INIT` writes (R72). Irreducible, so that comparing two states never unfolds the
table; the kernel evaluates it all the same. -/
@[irreducible] def builtTable : Table := Vector.ofFn fun i => tableEntry (BitVec.ofFin i)

/-- `TBL[addr]`. -/
def lookup (t : Table) (addr : Byte) : Rem := t.get addr.toFin

/-- The table address of `UPD` (R73): the top byte `r[14:7]` exclusive-or the input byte. -/
def updAddr (r : Rem) (b : Byte) : Byte := (r >>> 7).setWidth 8 ^^^ b

/-- `UPD(r, b)` (R73). -/
def upd (t : Table) (r : Rem) (b : Byte) : Rem := (r <<< 8) ^^^ lookup t (updAddr r b)

/-- The remainder after the bytes of `s`, taken in index order from `SEED` (R74). -/
def crcRem (t : Table) (s : List Byte) : Rem := s.foldl (upd t) seed

/-- A 15-bit remainder as a 16-bit PEC (R74, R76): shifted left by one, bit 0 zero. -/
def pecOf (r : Rem) : Pec := (r.setWidth 16) <<< 1

/-- `PEC15(s)` with the table `t` (R74). -/
def pec15 (t : Table) (s : List Byte) : Pec := pecOf (crcRem t s)

/-- The two wire bytes of a PEC, high byte first (R53). -/
def pecBytes (p : Pec) : List Byte := [p.extractLsb' 8 8, p.extractLsb' 0 8]

/-- The PEC value of two received bytes, the first received the high byte (R53). -/
def pecValue (b0 b1 : Byte) : Pec := b0 ++ b1

/-- The two command bytes of a header (R52): `CMD[10:8]` zero-extended, then `CMD[7:0]`. -/
def cmdBytes (cmd : Cmd) : List Byte := [(cmd.extractLsb' 8 3).setWidth 8, cmd.extractLsb' 0 8]

/-- `SEG(d)` (R91): the payload followed by its own PEC. -/
def seg (t : Table) (d : List Byte) : List Byte := d ++ pecBytes (pec15 t d)

/-- `HDR(cmd)` (R90): the command bytes followed by their PEC. -/
def hdr (t : Table) (cmd : Cmd) : List Byte := cmdBytes cmd ++ pecBytes (pec15 t (cmdBytes cmd))

/-- The inner step of `BIT15` (R78): one message bit `x`. -/
def bitStep (r : Rem) (x : Bool) : Rem :=
  if x ^^ r.getLsbD 14 then (r <<< 1) ^^^ poly else r <<< 1

/-- The eight message bits of one byte, most significant first (R78). -/
def bitByte (r : Rem) (b : Byte) : Rem :=
  [7, 6, 5, 4, 3, 2, 1, 0].foldl (fun r k => bitStep r (b.getLsbD k)) r

/-- `BIT15(s)` (R78): the CRC bit by bit, with no table. -/
def bit15 (s : List Byte) : Pec := pecOf (s.foldl bitByte seed)

end Sys2Proof.Machine
end

