-- ==== Sys2Proof/Config.lean ====
section
/-!
DEFINITION. What an implementation fixes (the parameter of R5), the types of what the transport hands
the block, and the free values: opaque constants with no body, for what the spec leaves open.
-/

namespace Sys2Proof

/-- What a failing transport call reports (R15): opaque to the block, which copies it and never looks
inside. DESIGN CHOICE (log 5): the report is held as a number that nothing in the model inspects. -/
structure TransportReport where
  tag : Nat
  deriving DecidableEq, Repr, Inhabited

/-- One answer of the transport (R38, R39). The bytes of an `ok` are what the bus returned: looked at
only by `transfer_in`, discarded by `transfer_out` (R38). -/
inductive Answer where
  | ok (rx : List Byte)
  | fail (e : TransportReport)
  deriving DecidableEq, Repr, Inhabited

/-- The parameters of R5. The three buffer sizes are computed from `maxDataLen` (Machine/Operands). -/
structure Config where
  /-- `MAX_DATA_LEN`, the largest payload of one device (R5, D7). -/
  maxDataLen : Nat
  deriving DecidableEq, Repr, Inhabited

/-- The default of R5: `MAX_DATA_LEN = 8`. -/
def Config.standard : Config := { maxDataLen := 8 }

/-- The range R5 states for `MAX_DATA_LEN`. -/
def Config.inRange (c : Config) : Bool := decide (8 ≤ c.maxDataLen) && decide (c.maxDataLen ≤ 255)

/-- FREE VALUE (R7; log 3): the transport's answer to a call for which `State.answers` lists none. -/
opaque Config.freeAnswer : Nat → Answer

/-- FREE VALUE (R39; log 3): the bytes that fill up a scripted answer shorter than the count asked for;
the arguments are the draw and the position. -/
opaque Config.freeWireByte : Nat → Nat → Byte

/-- FREE VALUE (R116, D13; log 10): `ERRMASK` after an operation that ended in `TRANSPORT_ERR`. -/
opaque Config.freeMask : Nat → Mask

/-- FREE VALUE (R116, D13; log 11): the bytes of `RXBUF` after a read that ended in `TRANSPORT_ERR`;
the arguments are the draw and the index. -/
opaque Config.freeRxByte : Nat → Nat → Byte

/-- FREE VALUE (R20; log 13): the bytes of `FRAME` after a framer operation; the arguments are the draw
and the index. -/
opaque Config.freeFrameByte : Nat → Nat → Byte

/-- FREE VALUE (R15, R116; log 12): `TERR` after a framer operation that reached the bus and
did not end in `TRANSPORT_ERR`. -/
opaque Config.freeReport : Nat → TransportReport

/-- FREE VALUE (R15, R116; log 12): `TERR` after an operation that ended without a transport call. The
arguments are the draw and the report held before, so that the report held is one of the values it may
take (R72, R75, R114) and nothing says that it is the one. -/
opaque Config.staleReport : Nat → TransportReport → TransportReport

end Sys2Proof
end

