-- ==== Sys2Proof/Syntax.lean ====
section
/-!
DEFINITION. The operations and encodings of spec/opcode_table.json, one constructor a row, and the
request a host presents (R57).
-/

namespace Sys2Proof

/-- What the host writes before it starts an operation (R11, R57): the four request registers and the
bytes of `TXBUF` from index 0 (R63). -/
structure Request where
  op : OpCode
  cmd : Cmd
  len : Len
  ndev : NDev
  payload : List Byte
  deriving DecidableEq, Repr

/-- One row of the opcode table each. A request carries the operand registers its operation uses (R58);
the bytes of `TXBUF` stay in the state. The last two are the wire formats of R50 and R51, which are
encodings and no operations. -/
inductive Instr where
  /-- `INIT`, OP 0 (R72). -/
  | init
  /-- `PEC15`, OP 1 (R75). -/
  | pec15 (len : Len)
  /-- `RUN`, OP 2 (R93). -/
  | run (cmd : Cmd)
  /-- `RDCMD`, OP 3 (R94). -/
  | rdcmd (cmd : Cmd) (len : Len)
  /-- `WRCMD`, OP 4 (R95). -/
  | wrcmd (cmd : Cmd) (len : Len)
  /-- `RDCHAIN`, OP 5 (R96). -/
  | rdchain (cmd : Cmd) (len : Len) (ndev : NDev)
  /-- `WRCHAIN`, OP 6 (R97). -/
  | wrchain (cmd : Cmd) (len : Len) (ndev : NDev)
  /-- The reserved value OP 7 (R59). -/
  | reserved7
  /-- `WIRE.H`, a header segment: the command (bits 26:16) and bits 15:1 of the PEC (R50). -/
  | wireH (cmd : Cmd) (pec : Rem)
  /-- `WIRE.D`, a data segment: the payload and bits 15:1 of the PEC (R51). -/
  | wireD (payload : List Byte) (pec : Rem)
  deriving DecidableEq, Repr

end Sys2Proof
end

