-- ==== Sys2Proof/Machine/State.lean ====
section
/-!
DEFINITION. The state of the block (spec/10_state.md), the reasons a step can stop, and the state after
reset (R26, R131).
-/

namespace Sys2Proof.Machine

/-- A byte buffer: index and byte, in the canonical form of `Memory.wf` (Machine/Memory.lean). -/
abbrev Memory := List Host.Cell

/-- The chip-select signal `CS` (R23). The electrical level is not given (D15). -/
inductive ChipSelect where
  | released
  | asserted
  deriving DecidableEq, Repr

/-- The sequencer phase `SEQ` (R12). -/
inductive Phase where
  | idle
  | selected
  | sent
  | received
  deriving DecidableEq, Repr

/-- The four values of `STATUS` (R13); their codes are `Status.code` (R62). -/
inductive Status where
  | ok
  | pecMismatch
  | transportErr
  | rejected
  deriving DecidableEq, Repr

/-- One call on the transport, as the trace records it (R8, R92). A failed `transferOut` carries the
report; a `transferIn` carries the count and the answer. -/
inductive TransportCall where
  | select
  | transferOut (bytes : List Byte) (failure : Option TransportReport)
  | transferIn (count : Nat) (answer : Answer)
  | deselect
  deriving DecidableEq, Repr

/-- The state of the block, field by field as spec/10_state.md section 1 lists it, and after it the
model's own fields. -/
structure State where
  /-- `OP` (R11). -/
  op : OpCode
  /-- `CMD` (R11). -/
  cmd : Cmd
  /-- `LEN` (R11). -/
  len : Len
  /-- `NDEV` (R11). -/
  ndev : NDev
  /-- `TXBUF` (R21). -/
  txbuf : Memory
  /-- `RXBUF` (R22). -/
  rxbuf : Memory
  /-- `FRAME` (R20). -/
  frame : Memory
  /-- `TBL` (R17). -/
  tbl : Table
  /-- `TBL_READY` (R18). -/
  tblReady : Bool
  /-- `REM` (R19). -/
  rem : Rem
  /-- `STATUS` (R13). -/
  status : Status
  /-- `ERRMASK` (R14). -/
  errmask : Mask
  /-- `TERR` (R15). -/
  terr : TransportReport
  /-- `PEC_OUT` (R16). -/
  pecOut : Pec
  /-- `CS` (R23). -/
  cs : ChipSelect
  /-- `SEQ` (R12). -/
  seq : Phase
  /-- The model's own: the parameters of R5, which no step writes (log 15). -/
  config : Config
  /-- The model's own: what the host will still ask for, next request first (R6; log 2). -/
  requests : List Request
  /-- The model's own: what the transport will still answer, next answer first (R7; log 3). -/
  answers : List Answer
  /-- The model's own: the transport calls made so far, newest last (R8; log 22). -/
  trace : List TransportCall
  /-- The model's own: how many free values have been drawn (R116; log 25). -/
  draws : Nat
  deriving DecidableEq, Repr

/-- Why the machine stops with a fault. -/
inductive Fault where
  /-- `TableNotBuilt` (R115): raised by every legal request that computes a PEC (`PEC15`, `RUN`,
  `RDCMD`, `WRCMD`, `RDCHAIN`, `WRCHAIN`) while `TBL_READY = 0`, before any transport call. Safe: the
  hardware goes on with garbage to which the spec gives no value (log 8). -/
  | tableNotBuilt
  /-- Raised by `step` when `SEQ` is not `IDLE`: the host has no move there (R43, U4). Safe: the model
  stops where the spec says nothing (log 9). -/
  | blockBusy
  deriving DecidableEq, Repr

/-- Why the machine refuses an instruction. -/
inductive Refusal where
  /-- Raised by an arm of `exec` that has no meaning yet. Safe: nothing is claimed of it. -/
  | notModelled (mnemonic : String)
  /-- Raised by `execWireH` and `execWireD`: a wire format is not an operation (R58) and the block never
  decodes one (R52). Safe: the model stops where the spec gives no effect (log 20). -/
  | wireFormatIsNoOperation
  deriving DecidableEq, Repr

/-- The state after reset (R26, R131): `CS` released, `SEQ` idle, `TBL_READY` 0. Every other value is
unspecified by the spec; DESIGN CHOICE (log 6, log 7): zero, `OK`, and buffers with nothing listed. -/
def State.reset : State where
  op := 0
  cmd := 0
  len := 0
  ndev := 0
  txbuf := []
  rxbuf := []
  frame := []
  tbl := Vector.replicate 256 0
  tblReady := false
  rem := 0
  status := .ok
  errmask := 0
  terr := { tag := 0 }
  pecOut := 0
  cs := .released
  seq := .idle
  config := Config.standard
  requests := []
  answers := []
  trace := []
  draws := 0

end Sys2Proof.Machine
end

