-- ==== Sys2Proof/Machine/Memory.lean ====
section
/-!
DEFINITION. The operations on one byte buffer (R30, R34: every access is one byte). A buffer is a list
of cells in one canonical form, so that equal buffers are equal lists.
-/

namespace Sys2Proof.Machine

/-- What a byte that nothing has written reads as. DESIGN CHOICE (log 7): the spec gives the buffers no
reset contents (R26, R131). -/
def unwritten : Byte := 0

/-- Indices strictly rising from `lo`, and no entry equal to what an unlisted index reads as. -/
def Memory.risesFrom (lo : Nat) : Memory → Bool
  | [] => true
  | (a, v) :: m => decide (lo ≤ a) && decide (v ≠ unwritten) && Memory.risesFrom (a + 1) m

/-- The canonical form. -/
def Memory.wf (m : Memory) : Bool := Memory.risesFrom 0 m

/-- Every listed index lies below `n` (R36). -/
def Memory.within (n : Nat) (m : Memory) : Bool := m.all fun c => decide (c.1 < n)

/-- The byte at one index. -/
def Memory.read : Memory → Nat → Byte
  | [], _ => unwritten
  | (b, v) :: m, a => if b = a then v else Memory.read m a

/-- A cell in front of a list, left out where it says what an unlisted index reads as. -/
def Memory.cell (a : Nat) (v : Byte) (m : Memory) : Memory := if v = unwritten then m else (a, v) :: m

/-- One byte written, the canonical form kept. -/
def Memory.write : Memory → Nat → Byte → Memory
  | [], a, v => Memory.cell a v []
  | (b, w) :: m, a, v =>
    if a < b then Memory.cell a v ((b, w) :: m)
    else if a = b then Memory.cell a v m
    else (b, w) :: Memory.write m a v

/-- `buffer[a .. a + n - 1]`. -/
def Memory.readBytes (m : Memory) : Nat → Nat → List Byte
  | _, 0 => []
  | a, n + 1 => m.read a :: Memory.readBytes m (a + 1) n

/-- `buffer[a .. ] <- bytes`, in index order. -/
def Memory.writeBytes (m : Memory) : Nat → List Byte → Memory
  | _, [] => m
  | a, v :: vs => Memory.writeBytes (m.write a v) (a + 1) vs

/-- A buffer of `n` bytes whose byte at index `i` is `f i`. -/
def Memory.filled (n : Nat) (f : Nat → Byte) : Memory :=
  Memory.writeBytes [] 0 ((List.range n).map f)

end Sys2Proof.Machine
end

