-- ==== Sys2Proof/Machine/Operands.lean ====
section
/-!
DEFINITION. Every operand form of the block: the sizes of R4 and R5, the legal ranges of R60, the
offsets of R35 and R55, and the slices of the buffers the operations use.
-/

namespace Sys2Proof.Machine

/-- `MAX_DEVICES` (R4). -/
def maxDevices : Nat := 8

/-- `HDR_LEN` (R4). -/
def hdrLen : Nat := 4

/-- `PEC_LEN` (R4). -/
def pecLen : Nat := 2

/-- `TXBUF_SIZE` (R5). -/
def txbufSize (c : Config) : Nat := maxDevices * c.maxDataLen

/-- `RXBUF_SIZE` (R5). -/
def rxbufSize (c : Config) : Nat := maxDevices * (c.maxDataLen + pecLen)

/-- `FRAME_SIZE` (R5). -/
def frameSize (c : Config) : Nat := hdrLen + maxDevices * (c.maxDataLen + pecLen)

/-- `PEC15` is legal (R60): `LEN <= TXBUF_SIZE`. -/
def pec15Legal (c : Config) (len : Len) : Bool := decide (len.toNat ≤ txbufSize c)

/-- `RDCMD` and `WRCMD` are legal (R60): `LEN <= MAX_DATA_LEN`. -/
def lenLegal (c : Config) (len : Len) : Bool := decide (len.toNat ≤ c.maxDataLen)

/-- The device count of a chained operation is legal (R60): `1 <= NDEV <= 8`. -/
def ndevLegal (ndev : NDev) : Bool := decide (1 ≤ ndev.toNat) && decide (ndev.toNat ≤ maxDevices)

/-- `RDCHAIN` and `WRCHAIN` are legal (R60). -/
def chainLegal (c : Config) (len : Len) (ndev : NDev) : Bool := lenLegal c len && ndevLegal ndev

/-- The bytes of one device's data segment (R51): `dlen + 2`. -/
def segLen (dlen : Nat) : Nat := dlen + pecLen

/-- Where record `i` starts in what a chained read receives (R35, R55). -/
def recordOffset (dlen i : Nat) : Nat := i * segLen dlen

/-- Where the payload of chain position `j` starts in `TXBUF` (R35, R55). -/
def payloadOffset (dlen j : Nat) : Nat := j * dlen

/-- Where wire segment `iq` of a write starts in `FRAME` (R35, R55). -/
def segmentOffset (dlen iq : Nat) : Nat := hdrLen + iq * segLen dlen

/-- The payload of chain position `j` (R21, R35). -/
def payloadAt (txbuf : Memory) (dlen j : Nat) : List Byte :=
  txbuf.readBytes (payloadOffset dlen j) dlen

/-- The data bytes of the record at offset `off` (R94, R96). -/
def recordData (rx : List Byte) (off dlen : Nat) : List Byte := (rx.drop off).take dlen

/-- The received PEC of the record at offset `off` (R53, R94, R96). -/
def recordPec (rx : List Byte) (off dlen : Nat) : Pec :=
  pecValue (rx.getD (off + dlen) 0) (rx.getD (off + dlen + 1) 0)

/-- Exactly `count` received bytes (R39) made of a scripted answer: cut to the count, or filled up with
free values. DESIGN CHOICE (log 3): every answer the contract allows is its own fit. -/
def fitAnswer (rx : List Byte) (count draw : Nat) : List Byte :=
  rx.take count ++ (List.range (count - rx.length)).map (Config.freeWireByte draw)

end Sys2Proof.Machine
end

