-- ==== Sys2Proof/WellFormed.lean ====
section
/-!
DEFINITION. What makes an instruction well formed: a request is legal (R60), a wire segment carries the
PEC of its own bytes (R50, R51) and a payload no longer than `MAX_DATA_LEN` (R51). An ill-formed request
still has an outcome: it is rejected (R114).
-/

namespace Sys2Proof

/-- Well formed under the parameters `c`. -/
def Instr.wellFormed (c : Config) : Instr → Bool
  | .init => true
  | .pec15 len => Machine.pec15Legal c len
  | .run _ => true
  | .rdcmd _ len => Machine.lenLegal c len
  | .wrcmd _ len => Machine.lenLegal c len
  | .rdchain _ len ndev => Machine.chainLegal c len ndev
  | .wrchain _ len ndev => Machine.chainLegal c len ndev
  | .reserved7 => false
  | .wireH cmd pec =>
    decide (Machine.pecOf pec = Machine.pec15 Machine.builtTable (Machine.cmdBytes cmd))
  | .wireD payload pec =>
    decide (payload.length ≤ c.maxDataLen) &&
      decide (Machine.pecOf pec = Machine.pec15 Machine.builtTable payload)

end Sys2Proof
end

