-- ==== Sys2Proof/Decode.lean ====
section
/-!
DEFINITION. Decoding and encoding of the three formats of spec/30_encoding.md: REQ, the request
registers (R57, R58); H, the header segment (R50); D, a data segment (R51). Decoding is total on any
bytes and rejects by name.
-/

namespace Sys2Proof

/-- The formats of the opcode table's `format` column. Which one a byte sequence is in is known from
where it stands (R30: the spaces are separate), never from its bits. -/
inductive Format where
  | req
  | h
  | d
  deriving DecidableEq, Repr

/-- Why bytes are not an instruction in a format. -/
inductive DecodeError where
  /-- A request image is five bytes (log 18), a header four (R50), a data segment at least two (R51). -/
  | wrongLength
  /-- A value wider than `OP`, `CMD` or `NDEV` cannot be presented (R11, D6). -/
  | registerTooWide
  /-- Bits 7 to 3 of header byte 0 are zero (R50). -/
  | headerUpperBits
  /-- Bit 0 of the low PEC byte is zero (R50, R51). -/
  | pecBitZero
  deriving DecidableEq, Repr

/-- The operation map (R58): `OP` selects the operation, the other registers are its operands. -/
def decodeRequest (op : OpCode) (cmd : Cmd) (len : Len) (ndev : NDev) : Instr :=
  match op.toNat with
  | 0 => .init
  | 1 => .pec15 len
  | 2 => .run cmd
  | 3 => .rdcmd cmd len
  | 4 => .wrcmd cmd len
  | 5 => .rdchain cmd len ndev
  | 6 => .wrchain cmd len ndev
  | _ => .reserved7

/-- A request image (log 18): `OP`, `CMD` high byte first (R31), `LEN`, `NDEV`, in the order of their
register numbers (R25), each zero-extended to whole bytes. -/
def decodeReq : List Byte → Except DecodeError Instr
  | [o, ch, cl, l, n] =>
    if 8 ≤ o.toNat then .error .registerTooWide
    else if 8 ≤ ch.toNat then .error .registerTooWide
    else if 16 ≤ n.toNat then .error .registerTooWide
    else .ok (decodeRequest (o.setWidth 3) ((ch ++ cl).setWidth 11) l (n.setWidth 4))
  | _ => .error .wrongLength

/-- A header segment (R50): four bytes, `00000ccc cccccccc pppppppp ppppppp0`. -/
def decodeH : List Byte → Except DecodeError Instr
  | [b0, b1, b2, b3] =>
    if 8 ≤ b0.toNat then .error .headerUpperBits
    else if b3.getLsbD 0 then .error .pecBitZero
    else .ok (.wireH ((b0 ++ b1).setWidth 11) ((b2 ++ b3).extractLsb' 1 15))
  | _ => .error .wrongLength

/-- A data segment (R51): the payload, then the two PEC bytes. -/
def decodeD (bytes : List Byte) : Except DecodeError Instr :=
  match bytes.reverse with
  | lo :: hi :: back =>
    if lo.getLsbD 0 then .error .pecBitZero
    else .ok (.wireD back.reverse ((hi ++ lo).extractLsb' 1 15))
  | _ => .error .wrongLength

/-- Decoding, total on any bytes. -/
def decode : Format → List Byte → Except DecodeError Instr
  | .req, bytes => decodeReq bytes
  | .h, bytes => decodeH bytes
  | .d, bytes => decodeD bytes

/-- The format an instruction is encoded in. -/
def Instr.format : Instr → Format
  | .wireH _ _ => .h
  | .wireD _ _ => .d
  | _ => .req

/-- The `OP` value of an instruction (R58); the wire formats have none. -/
def Instr.opCode : Instr → OpCode
  | .init => 0
  | .pec15 _ => 1
  | .run _ => 2
  | .rdcmd _ _ => 3
  | .wrcmd _ _ => 4
  | .rdchain _ _ _ => 5
  | .wrchain _ _ _ => 6
  | _ => 7

/-- The five bytes of a request image (log 18). -/
def requestImage (op : OpCode) (cmd : Cmd) (len : Len) (ndev : NDev) : List Byte :=
  [op.setWidth 8, (cmd.extractLsb' 8 3).setWidth 8, cmd.extractLsb' 0 8, len, ndev.setWidth 8]

/-- The bytes of an instruction; a register its operation ignores is written as zero. -/
def encode (i : Instr) : List Byte :=
  match i with
  | .init => requestImage i.opCode 0 0 0
  | .pec15 len => requestImage i.opCode 0 len 0
  | .run cmd => requestImage i.opCode cmd 0 0
  | .rdcmd cmd len => requestImage i.opCode cmd len 0
  | .wrcmd cmd len => requestImage i.opCode cmd len 0
  | .rdchain cmd len ndev => requestImage i.opCode cmd len ndev
  | .wrchain cmd len ndev => requestImage i.opCode cmd len ndev
  | .reserved7 => requestImage i.opCode 0 0 0
  | .wireH cmd pec => Machine.cmdBytes cmd ++ Machine.pecBytes (Machine.pecOf pec)
  | .wireD payload pec => payload ++ Machine.pecBytes (Machine.pecOf pec)

/-- The `n` bytes of a number, most significant first: the table numbers the bits of a wire row with
byte 0 leftmost (R50). -/
def bytesOfNat : Nat → Nat → List Byte
  | 0, _ => []
  | n + 1, w => BitVec.ofNat 8 (w / 256 ^ n) :: bytesOfNat n w

/-- The request a word of a REQ row stands for: its `OP`, every operand register zero. -/
def requestOfWord (nbits w : Nat) : Option Request :=
  if nbits ≤ 8 ∧ w < 8 then
    some { op := BitVec.ofNat 3 w, cmd := 0, len := 0, ndev := 0, payload := [] }
  else none

/-- The instruction of a table word (log 19): up to 8 bits is a REQ row's `OP` with operand registers
zero, 32 bits a header, any other whole number of bytes a data segment. -/
def decodeTableWord (nbits w : Nat) : Option Instr :=
  if nbits ≤ 8 then
    (requestOfWord nbits w).map fun r => decodeRequest r.op r.cmd r.len r.ndev
  else if nbits % 8 ≠ 0 ∨ 2 ^ nbits ≤ w then none
  else if nbits = 32 then (decodeH (bytesOfNat 4 w)).toOption
  else (decodeD (bytesOfNat (nbits / 8) w)).toOption

end Sys2Proof
end

