-- ==== Sys2Proof/Machine/Flags.lean ====
section
/-!
DEFINITION. The block's flags: the codes of `STATUS` (R62), the error flag of a chain position (R54) and
the per-device check that makes `ERRMASK` (R94, R96).
-/

namespace Sys2Proof.Machine

/-- The two bits of `STATUS` (R13, R62). -/
def statusCode : Status → BitVec 2
  | .ok => 0
  | .pecMismatch => 1
  | .transportErr => 2
  | .rejected => 3

/-- The error flag of chain position `i` (R54): `1 << i`. -/
def positionFlag (i : Nat) : Mask := 1#8 <<< i

/-- `STATUS` of a transaction that was verified (R96, D21): `OK` exactly when no flag is set. -/
def statusOfMask (mask : Mask) : Status := if mask = 0 then .ok else .pecMismatch

/-- One pass of the loop of R96: the mask so far and `REM`, after the record of position `i`. -/
def checkPosition (t : Table) (rx : List Byte) (dlen : Nat) (acc : Mask × Rem) (i : Nat) :
    Mask × Rem :=
  let r := crcRem t (recordData rx (recordOffset dlen i) dlen)
  (if pecOf r ≠ recordPec rx (recordOffset dlen i) dlen then acc.1 ||| positionFlag i else acc.1, r)

/-- The loop of R96 over the positions `0 .. ndev - 1`, with no early exit. -/
def checkChain (t : Table) (rx : List Byte) (dlen ndev : Nat) (r : Rem) : Mask × Rem :=
  (List.range ndev).foldl (checkPosition t rx dlen) (0, r)

/-- The single check of R94. -/
def checkSingle (t : Table) (rx : List Byte) (dlen : Nat) : Mask × Rem :=
  let r := crcRem t (recordData rx 0 dlen)
  (if pecOf r ≠ recordPec rx 0 dlen then 0x01 else 0x00, r)

end Sys2Proof.Machine
end

