-- ==== Sys2Proof/Machine/Ops.lean ====
section
/-!
DEFINITION. The named operations over the state: the host's move, the transport port (R37 to R39), the
assembly of `FRAME` (R35), the transaction skeleton (R92), the error outcomes (R110, R113, R114) and the
frame every framer operation shares (R118).
-/

namespace Sys2Proof.Machine

/-- The host's move (R11, R57): it writes the request registers and the bytes of `TXBUF` from index 0.
Bytes past the end of `TXBUF` do not exist (log 23). -/
def State.accept (s : State) (r : Request) (rest : List Request) : State :=
  { s with
    op := r.op, cmd := r.cmd, len := r.len, ndev := r.ndev
    txbuf := s.txbuf.writeBytes 0 (r.payload.take (txbufSize s.config))
    requests := rest }

/-- The host may start an operation (R12, R43): `SEQ` is `IDLE`. -/
def State.atRest (s : State) : Bool := decide (s.seq = .idle)

/-- `select()` (R37, R92). -/
def State.select (s : State) : State :=
  { s with cs := .asserted, seq := .selected, trace := s.trace ++ [.select] }

/-- `deselect()` (R37, R92). -/
def State.deselect (s : State) : State :=
  { s with cs := .released, seq := .idle, trace := s.trace ++ [.deselect] }

/-- The transport's answer to the call being made (R7): the next scripted one, or a free value. -/
def State.answer (s : State) : Answer :=
  match s.answers with
  | [] => Config.freeAnswer s.draws
  | a :: _ => a

/-- The state once that answer has been given. -/
def State.answered (s : State) : State :=
  match s.answers with
  | [] => { s with draws := s.draws + 1 }
  | _ :: rest => { s with answers := rest }

/-- What a `transfer_out` comes back with: `ok`, or the transport's report (R38). -/
def State.sendFailure (s : State) : Option TransportReport :=
  match s.answer with
  | .ok _ => none
  | .fail e => some e

/-- The state after `transfer_out(bytes)` (R38, R92): one call; `SEQ` advances when it was `ok`. -/
def State.sendBytes (s : State) (bytes : List Byte) : State :=
  { s.answered with
    seq := if s.sendFailure.isNone then .sent else s.seq
    trace := s.trace ++ [.transferOut bytes s.sendFailure] }

/-- What a `transfer_in(count)` comes back with (R39): exactly `count` bytes, or the report. -/
def State.receiveAnswer (s : State) (count : Nat) : Answer :=
  match s.answer with
  | .ok rx => .ok (fitAnswer rx count s.draws)
  | .fail e => .fail e

/-- The phase after a `transfer_in` (R92): `RECEIVED` when it was `ok`. -/
def phaseAfterReceive (a : Answer) (before : Phase) : Phase :=
  match a with
  | .ok _ => .received
  | .fail _ => before

/-- The state after `transfer_in(count)` (R39, R92). -/
def State.receiveBytes (s : State) (count : Nat) : State :=
  { s.answered with
    seq := phaseAfterReceive (s.receiveAnswer count) s.seq
    trace := s.trace ++ [.transferIn count (s.receiveAnswer count)] }

/-- How a transaction ends (R92): with the received bytes, or with the transport's report. -/
inductive TxnEnd where
  | done (rx : List Byte) (s : State)
  | failed (e : TransportReport) (s : State)
  deriving DecidableEq, Repr

/-- The receiving half of `TXN` (R92), after a `transfer_out` that was `ok`. -/
def txnReceive (rxCount : Nat) (s : State) : TxnEnd :=
  if rxCount = 0 then .done [] s.deselect
  else
    match s.receiveAnswer rxCount with
    | .fail e => .failed e (s.receiveBytes rxCount).deselect
    | .ok rx => .done rx (s.receiveBytes rxCount).deselect

/-- `TXN(out, rxcount)` (R92). -/
def txn (out : List Byte) (rxCount : Nat) (s : State) : TxnEnd :=
  match s.select.sendFailure with
  | some e => .failed e (s.select.sendBytes out).deselect
  | none => txnReceive rxCount (s.select.sendBytes out)

/-- `FRAME[0 .. 3] <- HDR(CMD)` (R93 to R97); `REM` is left with the remainder of its PEC (log 14). -/
def State.putHeader (s : State) (cmd : Cmd) : State :=
  { s with
    rem := crcRem s.tbl (cmdBytes cmd)
    frame := s.frame.writeBytes 0 (hdr s.tbl cmd) }

/-- `FRAME[dst ..] <- SEG(payload)` (R95, R97). -/
def State.putSegment (s : State) (dst : Nat) (payload : List Byte) : State :=
  { s with
    rem := crcRem s.tbl payload
    frame := s.frame.writeBytes dst (seg s.tbl payload) }

/-- `RXBUF[0 ..] <- rx` (R94, R96): the bytes beyond those received stay as they were (R22). -/
def State.storeReceived (s : State) (rx : List Byte) : State :=
  { s with rxbuf := s.rxbuf.writeBytes 0 rx }

/-- `FRAME` with unspecified contents (R20). FREE VALUE (log 13). -/
def freeFrame (s : State) : Memory := Memory.filled (frameSize s.config) (Config.freeFrameByte s.draws)

/-- `RXBUF` with unspecified contents (R22, R116). FREE VALUE (log 11). -/
def freeRxbuf (s : State) : Memory := Memory.filled (rxbufSize s.config) (Config.freeRxByte s.draws)

/-- The end of a framer operation whose transfers all succeeded (R93 to R97): the mask and the status
it gives are written; `TERR` and `FRAME` are unspecified (R15, R20). -/
def State.complete (s : State) (mask : Mask) : State :=
  { s with
    errmask := mask
    status := statusOfMask mask
    terr := Config.freeReport s.draws
    frame := freeFrame s
    draws := s.draws + 1 }

/-- The end of an operation that made no transport call (R72, R75, R114): `STATUS` is written, and
`TERR` is unspecified, as after every status but `TRANSPORT_ERR` (R15, R116). FREE VALUE (log 12). -/
def State.endOffBus (s : State) (st : Status) : State :=
  { s with
    status := st
    terr := Config.staleReport s.draws s.terr
    draws := s.draws + 1 }

/-- An error outcome the block raises itself (00_scope.md section 5.3, R110). -/
inductive ErrorOutcome where
  /-- `Rejected()` (R114). -/
  | rejected
  /-- `TransportErr(e)` (R113). -/
  | transportErr (e : TransportReport)
  deriving DecidableEq, Repr

/-- `raise` (R110): the one operation that ends an operation with an error outcome. A rejection writes
`STATUS` and nothing else (R114), and leaves `TERR` unspecified (R116). A transport failure writes
`STATUS` and `TERR`, leaves `CS` released and `SEQ` idle, and `ERRMASK` and `FRAME` unspecified (R116,
R20). -/
def State.raise (s : State) (o : ErrorOutcome) : State :=
  match o with
  | .rejected => s.endOffBus .rejected
  | .transportErr e =>
    { s with
      status := .transportErr
      terr := e
      cs := .released
      seq := .idle
      errmask := Config.freeMask s.draws
      frame := freeFrame s
      draws := s.draws + 1 }

/-- What a transport failure does to `RXBUF` (R22, R116): all of it unspecified after a read operation,
untouched by an operation that does not read (log 11). -/
def State.spoilReceived (s : State) (rxCount : Nat) : State :=
  if rxCount = 0 then s else { s with rxbuf := freeRxbuf s }

/-- A framer operation (R93 to R97), in the order of R118 and D18: the legality test; the table test;
the outgoing bytes assembled in `FRAME`; one transaction of `sent` bytes out and `rxCount` bytes in; the
verification, which writes the results. -/
def framer (legal : Bool) (assemble : State → State) (sent rxCount : Nat)
    (verify : List Byte → State → State) (s : State) : Host.Outcome State Fault Refusal :=
  if legal = false then .next (s.raise .rejected)
  else if s.tblReady = false then .fault .tableNotBuilt
  else
    match txn ((assemble s).frame.readBytes 0 sent) rxCount (assemble s) with
    | .failed e s' => .next ((s'.spoilReceived rxCount).raise (.transportErr e))
    | .done rx s' => .next (verify rx s')

/-- The end of an operation that verifies nothing (R93, R95, R97): `ERRMASK <- 0x00`, `STATUS <- OK`. -/
def verifyNothing (_ : List Byte) (s : State) : State := s.complete 0x00

/-- The end of `RDCMD` (R94). -/
def verifySingle (dlen : Nat) (rx : List Byte) (s : State) : State :=
  { s.storeReceived rx with rem := (checkSingle s.tbl rx dlen).2 }.complete
    (checkSingle s.tbl rx dlen).1

/-- The end of `RDCHAIN` (R96). -/
def verifyChain (dlen ndev : Nat) (rx : List Byte) (s : State) : State :=
  { s.storeReceived rx with rem := (checkChain s.tbl rx dlen ndev s.rem).2 }.complete
    (checkChain s.tbl rx dlen ndev s.rem).1

/-- One pass of the loop of R97: wire segment `iq` carries the payload of position `ndev - 1 - iq`. -/
def putChainSegment (dlen ndev : Nat) (s : State) (iq : Nat) : State :=
  s.putSegment (segmentOffset dlen iq) (payloadAt s.txbuf dlen (ndev - 1 - iq))

/-- `FRAME` assembled by `WRCMD` (R95). -/
def assembleSingle (cmd : Cmd) (dlen : Nat) (s : State) : State :=
  (s.putHeader cmd).putSegment hdrLen (payloadAt s.txbuf dlen 0)

/-- `FRAME` assembled by `WRCHAIN` (R97). -/
def assembleChain (cmd : Cmd) (dlen ndev : Nat) (s : State) : State :=
  (List.range ndev).foldl (putChainSegment dlen ndev) (s.putHeader cmd)

end Sys2Proof.Machine
end

