-- ==== Sys2Proof/Machine/Engine.lean ====
section
/-!
DEFINITION. The PEC15 generator's two operations (spec/40_pec15.md): pure computation, no transport call
(R70).
-/

namespace Sys2Proof.Machine

/-- `INIT` (R72). -/
def execInit (s : State) : Host.Outcome State Fault Refusal :=
  .next ({ s with tbl := builtTable, tblReady := true }.endOffBus .ok)

/-- `PEC15` (R75), in the order of R118. -/
def execPec15 (len : Len) (s : State) : Host.Outcome State Fault Refusal :=
  if pec15Legal s.config len = false then .next (s.raise .rejected)
  else if s.tblReady = false then .fault .tableNotBuilt
  else
    .next ({ s with
      rem := crcRem s.tbl (s.txbuf.readBytes 0 len.toNat)
      pecOut := pec15 s.tbl (s.txbuf.readBytes 0 len.toNat) }.endOffBus .ok)

end Sys2Proof.Machine
end

