-- ==== Sys2Proof/Machine/Framer.lean ====
section
/-!
DEFINITION. The command framer's five operations (spec/41_command_framer.md section 2).
-/

namespace Sys2Proof.Machine

/-- `RUN` (R93): always legal; the bare header is sent and nothing is received. -/
def execRun (cmd : Cmd) (s : State) : Host.Outcome State Fault Refusal :=
  framer true (fun s => s.putHeader cmd) hdrLen 0 verifyNothing s

/-- `RDCMD` (R94): the header is sent, one record is received and checked. -/
def execRdcmd (cmd : Cmd) (len : Len) (s : State) : Host.Outcome State Fault Refusal :=
  framer (lenLegal s.config len) (fun s => s.putHeader cmd) hdrLen (segLen len.toNat)
    (verifySingle len.toNat) s

/-- `WRCMD` (R95): the header and one data segment are sent. -/
def execWrcmd (cmd : Cmd) (len : Len) (s : State) : Host.Outcome State Fault Refusal :=
  framer (lenLegal s.config len) (assembleSingle cmd len.toNat) (hdrLen + segLen len.toNat) 0
    verifyNothing s

/-- `RDCHAIN` (R96): the header is sent, `NDEV` records are received and each is checked. -/
def execRdchain (cmd : Cmd) (len : Len) (ndev : NDev) (s : State) :
    Host.Outcome State Fault Refusal :=
  framer (chainLegal s.config len ndev) (fun s => s.putHeader cmd) hdrLen
    (segLen len.toNat * ndev.toNat) (verifyChain len.toNat ndev.toNat) s

/-- `WRCHAIN` (R97): the header and `NDEV` data segments are sent, farthest device first. -/
def execWrchain (cmd : Cmd) (len : Len) (ndev : NDev) (s : State) :
    Host.Outcome State Fault Refusal :=
  framer (chainLegal s.config len ndev) (assembleChain cmd len.toNat ndev.toNat)
    (segmentOffset len.toNat ndev.toNat) 0 verifyNothing s

end Sys2Proof.Machine
end

