-- ==== Sys2Proof/Machine/Reserved.lean ====
section
/-!
DEFINITION. The reserved operation value (R59) and the two rows of the opcode table that are no
operations (R50, R51, R58).
-/

namespace Sys2Proof.Machine

/-- `OP = 7` (R59, R114): `STATUS <- REJECTED`, nothing else but `TERR`, which is unspecified (R116,
log 12). -/
def execReserved7 (s : State) : Host.Outcome State Fault Refusal := .next (s.raise .rejected)

/-- `WIRE.H` is the header segment, not an operation: "the block never decodes a header, it only builds
them" (R52). Refused by name (log 20). -/
def execWireH (_ : Cmd) (_ : Rem) (_ : State) : Host.Outcome State Fault Refusal :=
  .refused .wireFormatIsNoOperation

/-- `WIRE.D` is a data segment, not an operation (R51, R58). Refused by name (log 20). -/
def execWireD (_ : List Byte) (_ : Rem) (_ : State) : Host.Outcome State Fault Refusal :=
  .refused .wireFormatIsNoOperation

end Sys2Proof.Machine
end

