-- ==== Sys2Proof/Machine/Dispatch.lean ====
section
/-!
DEFINITION. One arm per constructor of `Instr`, each a direct call of that instruction's meaning.
-/

namespace Sys2Proof.Machine

def exec (i : Instr) (s : State) : Host.Outcome State Fault Refusal :=
  match i with
  | .init => Sys2Proof.Machine.execInit s
  | .pec15 len => Sys2Proof.Machine.execPec15 len s
  | .run cmd => Sys2Proof.Machine.execRun cmd s
  | .rdcmd cmd len => Sys2Proof.Machine.execRdcmd cmd len s
  | .wrcmd cmd len => Sys2Proof.Machine.execWrcmd cmd len s
  | .rdchain cmd len ndev => Sys2Proof.Machine.execRdchain cmd len ndev s
  | .wrchain cmd len ndev => Sys2Proof.Machine.execWrchain cmd len ndev s
  | .reserved7 => Sys2Proof.Machine.execReserved7 s
  | .wireH cmd pec => Sys2Proof.Machine.execWireH cmd pec s
  | .wireD payload pec => Sys2Proof.Machine.execWireD payload pec s

end Sys2Proof.Machine
end

