-- ==== Sys2Proof/Machine/Step.lean ====
section
/-!
DEFINITION. One step of the whole: the host's next request is written to the request registers and the
block runs it to its end (R6, R12, R42; logs 1, 2, 21).
-/

namespace Sys2Proof.Machine

/-- The instruction the request registers hold (R57, R58). -/
def State.requested (s : State) : Instr := decodeRequest s.op s.cmd s.len s.ndev

/-- One step. With `SEQ` not `IDLE` the host has no move (U4, log 9). With no request to come the block
stays idle. Otherwise the host writes its next request and the block runs the operation it selects. -/
def step (s : State) : Host.Outcome State Fault Refusal :=
  if s.atRest = false then .fault .blockBusy
  else
    match s.requests with
    | [] => .next s
    | r :: rest => exec (s.accept r rest).requested (s.accept r rest)

/-- The word's request put in front of the host's list, and the block at rest. A wire row is fetched
from nowhere, so its word changes nothing (log 19). -/
def State.withFetchWord (s : State) (nbits w : Nat) : State :=
  match requestOfWord nbits w with
  | some r => { s with requests := r :: s.requests, seq := .idle }
  | none => s

end Sys2Proof.Machine
end

