-- ==== Sys2Proof/Safety.lean ====
section
/-!
DEFINITION. What counts as a safe state and a safe run, in the terms the statements use: the bus
discipline of R37 and R92, and the invariant of R17, R23, R36 and R119.
-/

namespace Sys2Proof.Machine

/-- The sequence of transport calls is a sequence of whole transactions, each of one of the four shapes
of R92: `select` first, one `transfer_out` of at least four bytes (R38), a `transfer_in` of at least two
only after it was `ok` and with exactly the count asked for (R39), `deselect` last. -/
def transactions : List TransportCall → Bool
  | [] => true
  | .select :: .transferOut out (some _) :: .deselect :: rest =>
    decide (hdrLen ≤ out.length) && transactions rest
  | .select :: .transferOut out none :: .deselect :: rest =>
    decide (hdrLen ≤ out.length) && transactions rest
  | .select :: .transferOut out none :: .transferIn n (.ok rx) :: .deselect :: rest =>
    decide (hdrLen ≤ out.length) && decide (pecLen ≤ n) && decide (rx.length = n) &&
      transactions rest
  | .select :: .transferOut out none :: .transferIn n (.fail _) :: .deselect :: rest =>
    decide (hdrLen ≤ out.length) && decide (pecLen ≤ n) && transactions rest
  | _ => false

/-- `CS` is released and `SEQ` is `IDLE`: what R119 says is true after every operation. -/
def State.atEase (s : State) : Prop := s.cs = .released ∧ s.seq = .idle

/-- The table is the built one whenever `TBL_READY` says so (R17, R18). -/
def State.tableSound (s : State) : Prop := s.tblReady = true → s.tbl = builtTable

/-- One buffer is in the canonical form and inside its `n` bytes (R36). -/
def bufferSound (n : Nat) (m : Memory) : Prop := m.wf = true ∧ m.within n = true

/-- The three buffers are in the canonical form and inside their sizes (R5, R36). -/
def State.buffersSound (s : State) : Prop :=
  bufferSound (txbufSize s.config) s.txbuf ∧ bufferSound (rxbufSize s.config) s.rxbuf ∧
    bufferSound (frameSize s.config) s.frame

/-- Bit 0 of `PEC_OUT` is 0 (R16, R25). -/
def State.pecOutSound (s : State) : Prop := s.pecOut.getLsbD 0 = false

/-- Every transport call so far belongs to a whole transaction (R37, R92). -/
def State.traceSound (s : State) : Prop := transactions s.trace = true

/-- The invariant of the machine. -/
structure State.Inv (s : State) : Prop where
  ease : s.atEase
  table : s.tableSound
  buffers : s.buffersSound
  pecOut : s.pecOutSound
  bus : s.traceSound

/-- A step ends safely: in a state that meets the invariant, and not in a fault or a refusal. -/
def safeOutcome (o : Host.Outcome State Fault Refusal) : Prop :=
  match o with
  | .next s => s.Inv
  | .fault _ => False
  | .refused _ => False

/-- The five operations of the command framer (R93 to R97). -/
def isFramer : Instr → Bool
  | .run _ => true
  | .rdcmd _ _ => true
  | .wrcmd _ _ => true
  | .rdchain _ _ _ => true
  | .wrchain _ _ _ => true
  | .init => false
  | .pec15 _ => false
  | .reserved7 => false
  | .wireH _ _ => false
  | .wireD _ _ => false

/-- The operations that evaluate `PEC15(s)` (R115). -/
def computesPec : Instr → Bool
  | .pec15 _ => true
  | i => isFramer i

/-- The bytes a framer operation sends, in order (R56), with the table built. -/
def sentBytes (txbuf : Memory) : Instr → List Byte
  | .run cmd => hdr builtTable cmd
  | .rdcmd cmd _ => hdr builtTable cmd
  | .rdchain cmd _ _ => hdr builtTable cmd
  | .wrcmd cmd len => hdr builtTable cmd ++ seg builtTable (txbuf.readBytes 0 len.toNat)
  | .wrchain cmd len ndev =>
    hdr builtTable cmd ++ (List.range ndev.toNat).reverse.flatMap fun j =>
      seg builtTable (txbuf.readBytes (j * len.toNat) len.toNat)
  | _ => []

/-- How many bytes an operation receives (R56). -/
def receivedCount : Instr → Nat
  | .rdcmd _ len => len.toNat + 2
  | .rdchain _ len ndev => (len.toNat + 2) * ndev.toNat
  | _ => 0

/-- How many records an operation checks (R94, R96). -/
def recordsChecked : Instr → Nat
  | .rdcmd _ _ => 1
  | .rdchain _ _ ndev => ndev.toNat
  | _ => 0

/-- The payload bytes of each record an operation checks (R94, R96). -/
def recordPayload : Instr → Nat
  | .rdcmd _ len => len.toNat
  | .rdchain _ len _ => len.toNat
  | _ => 0

/-- Record `i` of what was received fails its check (R112): its last two bytes, the first of them the
high byte, are not the PEC of the `dlen` bytes before them. -/
def recordFails (rx : List Byte) (dlen i : Nat) : Bool :=
  decide (pec15 builtTable ((rx.drop (i * (dlen + 2))).take dlen) ≠
    pecValue (rx.getD (i * (dlen + 2) + dlen) 0) (rx.getD (i * (dlen + 2) + dlen + 1) 0))

/-- What the host owns is as the host left it (R11, R21, R119): the request registers, every byte of
`TXBUF`, and the model's own parameters and list of requests to come. -/
def hostOwnedKept (s t : State) : Prop :=
  t.op = s.op ∧ t.cmd = s.cmd ∧ t.len = s.len ∧ t.ndev = s.ndev ∧
    (∀ a, t.txbuf.read a = s.txbuf.read a) ∧ t.config = s.config ∧ t.requests = s.requests

/-- The table and its flag are as before (R119). -/
def tableKept (s t : State) : Prop := t.tbl = s.tbl ∧ t.tblReady = s.tblReady

/-- `t` is what a rejected request leaves of `s` (R114): `STATUS` is `REJECTED` and nothing else has
changed but `TERR`, which is unspecified (R116, log 12), and the model's count of draws. -/
def rejectedFrom (s t : State) : Prop :=
  t = { s with status := .rejected, terr := t.terr, draws := t.draws }

/-- A payload with bit `b` of byte `j` changed (R79). -/
def flipBit (d : List Byte) (j b : Nat) : List Byte := d.set j (d.getD j 0 ^^^ 1#8 <<< b)

end Sys2Proof.Machine
end

