-- ==== Sys2Proof/Certificates/Slice0/Obligations.lean ====
section
/-!
DEFINITION. The statements of the model, each from the rules of spec/ its docstring names.
-/

open Sys2Proof Sys2Proof.Machine

/-! ### Encodings -/

/-- Decoding what the encoder writes gives the instruction back, every operand at every value. The five
bytes of a request image are the model's own layout (log 18); the wire formats are R50 and R51. -/
def Obligations.DecodeEncodeAgree : Prop :=
  ∀ i : Instr, decode i.format (encode i) = .ok i

/-- Encoding what the decoder reads off the wire gives the bytes back: no bit of formats H and D
(R50, R51) is dropped. -/
def Obligations.EncodeDecodeWireAgree : Prop :=
  ∀ (f : Format) (bytes : List Byte) (i : Instr), f ≠ .req → decode f bytes = .ok i →
    i.format = f ∧ encode i = bytes

/-- The operation map (R58, decision D11; the image's layout is log 18): `OP` selects the operation and
the other registers are its operands. -/
def Obligations.OperationMap : Prop :=
  ∀ (cmd : Cmd) (len : Len) (ndev : NDev),
    decode .req (requestImage 0 cmd len ndev) = .ok .init ∧
    decode .req (requestImage 1 cmd len ndev) = .ok (.pec15 len) ∧
    decode .req (requestImage 2 cmd len ndev) = .ok (.run cmd) ∧
    decode .req (requestImage 3 cmd len ndev) = .ok (.rdcmd cmd len) ∧
    decode .req (requestImage 4 cmd len ndev) = .ok (.wrcmd cmd len) ∧
    decode .req (requestImage 5 cmd len ndev) = .ok (.rdchain cmd len ndev) ∧
    decode .req (requestImage 6 cmd len ndev) = .ok (.wrchain cmd len ndev) ∧
    decode .req (requestImage 7 cmd len ndev) = .ok .reserved7

/-- A few words written out from the encodings of R50, R51 and R58. That a table word of up to 8 bits is
an `OP` with every operand register zero is the model's convention (log 19, DESIGN CHOICE). -/
def Obligations.HandwrittenWordsDecode : Prop :=
  decodeTableWord 8 0b001 = some (.pec15 0) ∧
  decodeTableWord 8 0b110 = some (.wrchain 0 0 0) ∧
  decodeTableWord 8 0b111 = some .reserved7 ∧
  decode .h [0b00000111, 0b00010100, 0xF3, 0x6C] = .ok (.wireH 0x714 0x79B6) ∧
  decode .h [0b00001000, 0x00, 0x00, 0x00] = .error .headerUpperBits ∧
  decode .d [0xA0, 0x24, 0x28] = .ok (.wireD [0xA0] 0x1214) ∧
  decode .d [0xA0, 0x24, 0x29] = .error .pecBitZero

/-- R52: the two header bytes of a command, and the command back from them; the block never decodes a
header: no request selects one. -/
def Obligations.CommandBytes : Prop :=
  ∀ cmd : Cmd, ∃ h0 h1 : Byte, cmdBytes cmd = [h0, h1] ∧
    h0.toNat = cmd.toNat >>> 8 ∧ h0.toNat ≤ 7 ∧ h1.toNat = cmd.toNat &&& 0xFF ∧
    cmd.toNat = h0.toNat * 256 + h1.toNat ∧
    ∀ (op : OpCode) (c : Cmd) (len : Len) (ndev : NDev) (pec : Rem),
      decodeRequest op c len ndev ≠ .wireH cmd pec

/-- R53: a PEC to wire bytes and back, the comparison of all 16 bits in the single read and at each
chain position, and a received PEC with bit 0 set never matching. -/
def Obligations.PecBytesAndComparison : Prop :=
  (∀ p : Pec, ∃ b0 b1 : Byte, pecBytes p = [b0, b1] ∧ b0.toNat = p.toNat / 256 ∧
    b1.toNat = p.toNat % 256) ∧
  (∀ b0 b1 : Byte, (pecValue b0 b1).toNat = b0.toNat * 256 + b1.toNat) ∧
  (∀ (t : Table) (d : List Byte) (b0 b1 : Byte),
    (checkSingle t (d ++ [b0, b1]) d.length).1 = 0 ↔ pec15 t d = pecValue b0 b1) ∧
  (∀ (t : Table) (rx : List Byte) (dlen i : Nat) (acc : Mask × Rem),
    (checkPosition t rx dlen acc i).1 =
      if pec15 t (recordData rx (recordOffset dlen i) dlen) = recordPec rx (recordOffset dlen i) dlen
      then acc.1 else acc.1 ||| positionFlag i) ∧
  (∀ (t : Table) (d : List Byte) (b0 b1 : Byte), b1.getLsbD 0 = true →
    pec15 t d ≠ pecValue b0 b1 ∧ (checkSingle t (d ++ [b0, b1]) d.length).1 = 1)

/-- R54: the error flag of each chain position. -/
def Obligations.PositionFlags : Prop :=
  (∀ i, i < 8 → positionFlag i = 1#8 <<< i) ∧
  (List.range 8).map positionFlag = [0x01, 0x02, 0x04, 0x08, 0x10, 0x20, 0x40, 0x80] ∧
  (∀ i k, i < 8 → k < 8 → ((positionFlag i).getLsbD k = true ↔ k = i))

/-! ### The PEC15 generator -/

/-- The table-driven CRC is the bit-by-bit CRC (40_pec15.md section 6). -/
def Obligations.Pec15IsBitSerialCrc : Prop :=
  ∀ s : List Byte, pec15 builtTable s = bit15 s

/-- The built table is linear over exclusive-or (40_pec15.md section 6). -/
def Obligations.BuiltTableIsLinear : Prop :=
  ∀ a b : Byte, lookup builtTable (a ^^^ b) = lookup builtTable a ^^^ lookup builtTable b

/-- The 256 entries are pairwise distinct (40_pec15.md section 3). -/
def Obligations.TableEntriesDiffer : Prop :=
  ∀ a b : Byte, lookup builtTable a = lookup builtTable b → a = b

/-- `PEC15` is affine in the message (40_pec15.md section 6). -/
def Obligations.Pec15IsAffine : Prop :=
  ∀ a b : List Byte, a.length = b.length →
    pec15 builtTable (List.zipWith (· ^^^ ·) a b) =
      pec15 builtTable a ^^^ pec15 builtTable b ^^^ pec15 builtTable (List.replicate a.length 0)

/-- An all-zero sequence never has PEC zero, so an all-zero record fails its check, and so does an
all-ones record (40_pec15.md section 6). -/
def Obligations.StuckBusNeverMatches : Prop :=
  ∀ n : Nat, pec15 builtTable (List.replicate n 0x00) ≠ pecValue 0x00 0x00 ∧
    pec15 builtTable (List.replicate n 0xFF) ≠ pecValue 0xFF 0xFF

/-- A payload followed by its own PEC has PEC zero (40_pec15.md section 6). -/
def Obligations.SegmentResidueIsZero : Prop :=
  ∀ d : List Byte, pec15 builtTable (seg builtTable d) = 0

/-- Changing one bit of a payload changes its PEC (40_pec15.md section 6, which says it of payloads of 6
and 8 bytes). -/
def Obligations.SingleBitChangeChangesPec : Prop :=
  ∀ (d : List Byte) (j b : Nat), j < d.length → b < 8 →
    pec15 builtTable (flipBit d j b) ≠ pec15 builtTable d

/-- The 2048 commands have 2048 different header PECs (95_test_vectors.md section 2.5). -/
def Obligations.HeaderPecsDiffer : Prop :=
  ∀ c c' : Cmd, pec15 builtTable (cmdBytes c) = pec15 builtTable (cmdBytes c') → c = c'

/-- The shape of a PEC (40_pec15.md section 4): bit 0 is 0, bits 15:1 are the final remainder, and the
value zero does occur. -/
def Obligations.PecShape : Prop :=
  (∀ (t : Table) (s : List Byte), (pec15 t s).getLsbD 0 = false ∧
    (pec15 t s).extractLsb' 1 15 = crcRem t s ∧ (pec15 t s).toNat = 2 * (crcRem t s).toNat) ∧
  pec15 builtTable [0x00, 0x20] = 0

/-- `PEC15` is total and pure (R77); the empty input gives the shifted seed; the operation with
`LEN = 0` reads no byte of the buffer; and the operation (R75) writes `PEC_OUT`, `STATUS` and the scratch
`REM`, leaves `TERR` unspecified (R116, log 12), and changes nothing else. -/
def Obligations.EmptyInputAndPurity : Prop :=
  (∀ t : Table, pec15 t [] = 0x0020) ∧
  (∀ s : State, s.tblReady = true →
    ∃ t, exec (.pec15 0) s = .next t ∧
      t = { s with
        rem := t.rem, pecOut := 0x0020, status := .ok, terr := t.terr, draws := t.draws }) ∧
  (∀ (s : State) (m : Memory), s.tblReady = true →
    ∃ t u, exec (.pec15 0) s = .next t ∧ exec (.pec15 0) { s with txbuf := m } = .next u ∧
      u.pecOut = t.pecOut) ∧
  (∀ (s : State) (len : Len), s.tblReady = true → len.toNat ≤ 8 * s.config.maxDataLen →
    ∃ t, exec (.pec15 len) s = .next t ∧ t = { s with
      rem := t.rem
      pecOut := pec15 s.tbl (s.txbuf.readBytes 0 len.toNat)
      status := .ok
      terr := t.terr
      draws := t.draws })

/-- R81: a payload with its PEC appended passes the check every read makes. -/
def Obligations.RoundTripIntegrity : Prop :=
  ∀ (t : Table) (d : List Byte),
    pecValue ((seg t d).getD d.length 0) ((seg t d).getD (d.length + 1) 0) =
      pec15 t ((seg t d).take d.length)

/-- R91: a data segment is the payload, then the PEC of the payload alone, high byte first. -/
def Obligations.DataSegmentLayout : Prop :=
  (∀ (t : Table) (d : List Byte),
    seg t d = d ++ [(pec15 t d).extractLsb' 8 8, (pec15 t d).extractLsb' 0 8] ∧
    (seg t d).length = d.length + 2) ∧
  seg builtTable [0xA0, 0xA1, 0xA2, 0xA3, 0xA4, 0xA5] =
    [0xA0, 0xA1, 0xA2, 0xA3, 0xA4, 0xA5, 0x24, 0x28] ∧
  seg builtTable [] = [0x00, 0x20]

/-- `INIT` (40_pec15.md section 3) completes from every state and writes the table, `TBL_READY` and
`STATUS`; `TERR` is unspecified afterwards (R116; log 12) and nothing else changes; each entry is eight
steps from the byte in bits 14:7. -/
def Obligations.InitBuildsTheTable : Prop :=
  ∀ s : State, ∃ t, exec .init s = .next t ∧
    t = { s with
      tbl := t.tbl, tblReady := true, status := .ok, terr := t.terr, draws := t.draws } ∧
    ∀ b : Byte, lookup t.tbl b =
      step1 (step1 (step1 (step1 (step1 (step1 (step1 (step1 ((b.setWidth 15) <<< 7))))))))

/-- `PEC15` (40_pec15.md section 5) completes on every legal length with the table built: `PEC_OUT` is
the bit-by-bit CRC of `TXBUF[0 .. LEN - 1]` (40_pec15.md section 6), `TERR` is unspecified (R116;
log 12), and besides these, `STATUS` and the scratch `REM` nothing changes. Which value `REM` keeps is the
model's reading (log 14). -/
def Obligations.Pec15Completes : Prop :=
  ∀ (s : State) (len : Len), s.tblReady = true → s.tableSound →
    len.toNat ≤ 8 * s.config.maxDataLen →
    ∃ t, exec (.pec15 len) s = .next t ∧ t = { s with
      rem := crcRem builtTable (s.txbuf.readBytes 0 len.toNat)
      pecOut := bit15 (s.txbuf.readBytes 0 len.toNat)
      status := .ok
      terr := t.terr
      draws := t.draws }

/-! ### The command framer -/

/-- `RUN` (41_command_framer.md section 2) completes when the transport accepts the header: exactly the
four header bytes go out, nothing is received, `STATUS` is `OK` and `ERRMASK` is 0. -/
def Obligations.RunCompletes : Prop :=
  ∀ (s : State) (cmd : Cmd) (ignored : List Byte), s.tblReady = true → s.tableSound →
    s.frame.wf = true → s.answer = .ok ignored →
    ∃ t, exec (.run cmd) s = .next t ∧ t.status = .ok ∧ t.errmask = 0 ∧
      t.cs = .released ∧ t.seq = .idle ∧ t.answers = s.answered.answers ∧
      t.trace = s.trace ++ [.select, .transferOut (hdr builtTable cmd) none, .deselect]

/-- `WRCMD` (41_command_framer.md section 2) completes when the transport accepts the frame: the header
and the payload of `TXBUF` with its own PEC go out in one transfer. -/
def Obligations.WrcmdCompletes : Prop :=
  ∀ (s : State) (cmd : Cmd) (len : Len) (ignored : List Byte), s.tblReady = true → s.tableSound →
    s.frame.wf = true → len.toNat ≤ s.config.maxDataLen → s.answer = .ok ignored →
    ∃ t, exec (.wrcmd cmd len) s = .next t ∧ t.status = .ok ∧ t.errmask = 0 ∧
      t.cs = .released ∧ t.seq = .idle ∧ t.answers = s.answered.answers ∧
      t.trace = s.trace ++
        [.select,
         .transferOut
           (hdr builtTable cmd ++ seg builtTable (s.txbuf.readBytes 0 len.toNat)) none,
         .deselect]

/-- `WRCHAIN` (41_command_framer.md section 2) completes when the transport accepts the frame: the
header, then one segment per device, the farthest device's first, in one transfer. -/
def Obligations.WrchainCompletes : Prop :=
  ∀ (s : State) (cmd : Cmd) (len : Len) (ndev : NDev) (ignored : List Byte),
    s.tblReady = true → s.tableSound → s.frame.wf = true → len.toNat ≤ s.config.maxDataLen →
    1 ≤ ndev.toNat → ndev.toNat ≤ 8 → s.answer = .ok ignored →
    ∃ t, exec (.wrchain cmd len ndev) s = .next t ∧ t.status = .ok ∧ t.errmask = 0 ∧
      t.cs = .released ∧ t.seq = .idle ∧ t.answers = s.answered.answers ∧
      t.trace = s.trace ++
        [.select,
         .transferOut
           (hdr builtTable cmd ++ (List.range ndev.toNat).reverse.flatMap fun j =>
             seg builtTable (s.txbuf.readBytes (j * len.toNat) len.toNat)) none,
         .deselect]

/-- `RDCMD` (41_command_framer.md section 2) completes when both transfers succeed: the header goes out,
`LEN + 2` bytes come in and are stored as received, and the mask and the status say whether the last two
are the PEC of the others. -/
def Obligations.RdcmdCompletes : Prop :=
  ∀ (s : State) (cmd : Cmd) (len : Len) (ignored rx : List Byte), s.tblReady = true →
    s.tableSound → s.frame.wf = true → s.rxbuf.wf = true → len.toNat ≤ s.config.maxDataLen →
    s.answer = .ok ignored → s.answered.receiveAnswer (len.toNat + 2) = .ok rx →
    ∃ t, exec (.rdcmd cmd len) s = .next t ∧ t.cs = .released ∧ t.seq = .idle ∧
      t.trace = s.trace ++
        [.select, .transferOut (hdr builtTable cmd) none,
         .transferIn (len.toNat + 2) (.ok rx), .deselect] ∧
      (∀ k, k < len.toNat + 2 → t.rxbuf.read k = rx.getD k 0) ∧
      (∀ k, len.toNat + 2 ≤ k → t.rxbuf.read k = s.rxbuf.read k) ∧
      (pec15 builtTable (rx.take len.toNat) =
          pecValue (rx.getD len.toNat 0) (rx.getD (len.toNat + 1) 0) →
        t.status = .ok ∧ t.errmask = 0x00) ∧
      (pec15 builtTable (rx.take len.toNat) ≠
          pecValue (rx.getD len.toNat 0) (rx.getD (len.toNat + 1) 0) →
        t.status = .pecMismatch ∧ t.errmask = 0x01)

/-- `RDCHAIN` (41_command_framer.md section 2) completes when both transfers succeed: bit `p` of
`ERRMASK` is set exactly when a record `p` was received and fails its check, and `STATUS` is
`PEC_MISMATCH` exactly when some bit is. -/
def Obligations.RdchainCompletes : Prop :=
  ∀ (s : State) (cmd : Cmd) (len : Len) (ndev : NDev) (ignored rx : List Byte),
    s.tblReady = true → s.tableSound → s.frame.wf = true → s.rxbuf.wf = true →
    len.toNat ≤ s.config.maxDataLen → 1 ≤ ndev.toNat → ndev.toNat ≤ 8 →
    s.answer = .ok ignored →
    s.answered.receiveAnswer ((len.toNat + 2) * ndev.toNat) = .ok rx →
    ∃ t, exec (.rdchain cmd len ndev) s = .next t ∧ t.cs = .released ∧ t.seq = .idle ∧
      t.trace = s.trace ++
        [.select, .transferOut (hdr builtTable cmd) none,
         .transferIn ((len.toNat + 2) * ndev.toNat) (.ok rx), .deselect] ∧
      (∀ k, k < (len.toNat + 2) * ndev.toNat → t.rxbuf.read k = rx.getD k 0) ∧
      (∀ k, (len.toNat + 2) * ndev.toNat ≤ k → t.rxbuf.read k = s.rxbuf.read k) ∧
      (∀ p, p < 8 →
        (t.errmask.getLsbD p = true ↔ p < ndev.toNat ∧ recordFails rx len.toNat p = true)) ∧
      (t.status = if t.errmask = 0 then .ok else .pecMismatch)

/-- The frame of the operations that receive nothing (R27, R22): the host's registers and `TXBUF`, the
table, `PEC_OUT`, and every byte of `RXBUF` stay as they were, whatever the outcome; after a rejection
every byte of `FRAME`, `REM` and `ERRMASK` do too, and `TERR` is unspecified (R116; log 12). `RXBUF` after
a failed send is the model's reading (log 11), and so are `CS` and `SEQ` after a rejection (log 17). -/
def Obligations.SendingFrame : Prop :=
  ∀ (i : Instr) (s t : State), isFramer i = true → receivedCount i = 0 → exec i s = .next t →
    hostOwnedKept s t ∧ tableKept s t ∧ t.pecOut = s.pecOut ∧
      (∀ a, t.rxbuf.read a = s.rxbuf.read a) ∧
      (t.status = .rejected →
        (∀ a, t.frame.read a = s.frame.read a) ∧ t.rem = s.rem ∧ t.errmask = s.errmask ∧
          t.cs = s.cs ∧ t.seq = s.seq)

/-- The frame of the two reads (R27, R22): as for the others, but that `RXBUF` changes below the count
received when both transfers succeeded, and is unspecified after a transport failure. After a
rejection `TERR` is unspecified (R116; log 12), and `CS` and `SEQ` are the model's reading (log 17). -/
def Obligations.ReadingFrame : Prop :=
  ∀ (i : Instr) (s t : State),
    ((∃ cmd len, i = .rdcmd cmd len) ∨ ∃ cmd len ndev, i = .rdchain cmd len ndev) →
    exec i s = .next t →
    hostOwnedKept s t ∧ tableKept s t ∧ t.pecOut = s.pecOut ∧
      (t.status ≠ .transportErr → ∀ a, receivedCount i ≤ a → t.rxbuf.read a = s.rxbuf.read a) ∧
      (t.status = .rejected →
        (∀ a, t.rxbuf.read a = s.rxbuf.read a) ∧ (∀ a, t.frame.read a = s.frame.read a) ∧
          t.rem = s.rem ∧ t.errmask = s.errmask ∧ t.cs = s.cs ∧ t.seq = s.seq)

/-- An illegal request (30_encoding.md section 5, 60_exceptions.md section 2) and the reserved value of
`OP` end with `STATUS = REJECTED`, table built or not; `TERR` is unspecified (R116; log 12) and nothing
else changes. That `CS` and `SEQ` are among what does not is the model's reading (log 17). -/
def Obligations.IllegalRequestsAreRejected : Prop :=
  ∀ (s : State) (cmd : Cmd) (len : Len) (ndev : NDev),
    (∃ t, exec .reserved7 s = .next t ∧ rejectedFrom s t) ∧
    (8 * s.config.maxDataLen < len.toNat →
      ∃ t, exec (.pec15 len) s = .next t ∧ rejectedFrom s t) ∧
    (s.config.maxDataLen < len.toNat →
      (∃ t, exec (.rdcmd cmd len) s = .next t ∧ rejectedFrom s t) ∧
      (∃ t, exec (.wrcmd cmd len) s = .next t ∧ rejectedFrom s t)) ∧
    (s.config.maxDataLen < len.toNat ∨ ndev.toNat = 0 ∨ 8 < ndev.toNat →
      (∃ t, exec (.rdchain cmd len ndev) s = .next t ∧ rejectedFrom s t) ∧
      (∃ t, exec (.wrchain cmd len ndev) s = .next t ∧ rejectedFrom s t))

/-- A legal request that computes a PEC before the table is built faults (60_exceptions.md section 2; the
fault's form is log 8). -/
def Obligations.TableNotBuiltFaults : Prop :=
  ∀ (s : State) (i : Instr), computesPec i = true → i.wellFormed s.config = true →
    s.tblReady = false → exec i s = .fault .tableNotBuilt

/-- A `transfer_out` that fails (60_exceptions.md section 2): the frame was offered once, nothing is
received, the bus is released, and the transport's report is in `TERR`. -/
def Obligations.SendFailureIsReported : Prop :=
  ∀ (s : State) (i : Instr) (e : TransportReport), isFramer i = true →
    i.wellFormed s.config = true → s.tblReady = true → s.tableSound → s.frame.wf = true →
    s.answer = .fail e →
    ∃ t, exec i s = .next t ∧ t.status = .transportErr ∧ t.terr = e ∧ t.cs = .released ∧
      t.seq = .idle ∧ t.answers = s.answered.answers ∧
      t.trace = s.trace ++ [.select, .transferOut (sentBytes s.txbuf i) (some e), .deselect]

/-- A `transfer_in` that fails (60_exceptions.md section 2): the header was sent, no check is made, the
bus is released, and the transport's report is in `TERR`. -/
def Obligations.ReceiveFailureIsReported : Prop :=
  ∀ (s : State) (i : Instr) (ignored : List Byte) (e : TransportReport), isFramer i = true →
    receivedCount i ≠ 0 → i.wellFormed s.config = true → s.tblReady = true → s.tableSound →
    s.frame.wf = true → s.answer = .ok ignored → s.answered.answer = .fail e →
    ∃ t, exec i s = .next t ∧ t.status = .transportErr ∧ t.terr = e ∧ t.cs = .released ∧
      t.seq = .idle ∧
      t.trace = s.trace ++
        [.select, .transferOut (sentBytes s.txbuf i) none, .transferIn (receivedCount i) (.fail e),
         .deselect]

/-- R37: every framer operation that is not rejected calls `select` exactly once, before any transfer,
and `deselect` exactly once, after the last transfer it attempts, on the failing paths too; `INIT`,
`PEC15` and a rejected request call neither, and no transfer. -/
def Obligations.BusDiscipline : Prop :=
  ∀ (i : Instr) (s t : State), exec i s = .next t →
    ∃ calls, t.trace = s.trace ++ calls ∧
      (isFramer i = true → t.status ≠ .rejected →
        calls.head? = some .select ∧ calls.getLast? = some .deselect ∧
          calls.count .select = 1 ∧ calls.count .deselect = 1 ∧ transactions calls = true) ∧
      (isFramer i = false ∨ t.status = .rejected → calls = [])

/-- R39: `transfer_in` is called by `RDCMD` and `RDCHAIN` alone, at most once an operation, for at least
two bytes, and when it succeeds it gives exactly the count asked for. -/
def Obligations.ReceivingCalls : Prop :=
  ∀ (i : Instr) (s t : State) (n : Nat) (a : Answer) (calls : List TransportCall),
    exec i s = .next t → t.trace = s.trace ++ calls → .transferIn n a ∈ calls →
    ((∃ cmd len, i = .rdcmd cmd len) ∨ ∃ cmd len ndev, i = .rdchain cmd len ndev) ∧
      n = receivedCount i ∧ 2 ≤ n ∧ calls.count (.transferIn n a) = 1 ∧
      (∀ m b, .transferIn m b ∈ calls → m = n ∧ b = a) ∧
      (∀ rx, a = .ok rx → rx.length = n)

/-- R112: a PEC mismatch is reported by the two reads alone, only after both transfers succeeded and
`CS` was released, with bit `p` of `ERRMASK` set for every failing position and no other and with every
received byte in `RXBUF`; and it is reported whenever both transfers of a read succeeded and some record
fails its check. -/
def Obligations.MismatchIsReportedExactly : Prop :=
  ∀ (i : Instr) (s t : State), s.tableSound → s.rxbuf.wf = true → exec i s = .next t →
    (t.status = .pecMismatch →
      ((∃ cmd len, i = .rdcmd cmd len) ∨ ∃ cmd len ndev, i = .rdchain cmd len ndev) ∧
      ∃ out rx,
        t.trace = s.trace ++
          [.select, .transferOut out none, .transferIn (receivedCount i) (.ok rx), .deselect] ∧
        t.cs = .released ∧
        (∃ p, p < recordsChecked i ∧ recordFails rx (recordPayload i) p = true) ∧
        (∀ p, p < 8 → (t.errmask.getLsbD p = true ↔
          p < recordsChecked i ∧ recordFails rx (recordPayload i) p = true)) ∧
        (∀ k, k < receivedCount i → t.rxbuf.read k = rx.getD k 0)) ∧
    (∀ out rx p,
      t.trace = s.trace ++
        [.select, .transferOut out none, .transferIn (receivedCount i) (.ok rx), .deselect] →
      p < recordsChecked i → recordFails rx (recordPayload i) p = true → t.status = .pecMismatch)

/-- R23: `select` asserts `CS`, `deselect` releases it; it is released exactly while `SEQ` is `IDLE`,
which every transport call of a transaction keeps; and it is released after every framer operation that
is not rejected, on the error paths too. -/
def Obligations.ChipSelectFollowsPhase : Prop :=
  (∀ s : State, s.select.cs = .asserted ∧ s.select.seq ≠ .idle ∧ s.deselect.cs = .released ∧
    s.deselect.seq = .idle) ∧
  (∀ (s : State) (out : List Byte), s.cs = .asserted → s.seq ≠ .idle →
    (s.sendBytes out).cs = .asserted ∧ (s.sendBytes out).seq ≠ .idle) ∧
  (∀ (s : State) (n : Nat), s.cs = .asserted → s.seq ≠ .idle →
    (s.receiveBytes n).cs = .asserted ∧ (s.receiveBytes n).seq ≠ .idle) ∧
  (∀ (i : Instr) (s t : State), isFramer i = true → exec i s = .next t → t.status ≠ .rejected →
    t.cs = .released ∧ t.seq = .idle)

/-- Which operation can end in which outcome (60_exceptions.md section 2). -/
def Obligations.OutcomesOfEachOperation : Prop :=
  ∀ (s t : State) (cmd : Cmd) (len : Len) (ndev : NDev),
    (exec .init s = .next t → t.status = .ok) ∧
    (exec (.pec15 len) s = .next t → t.status = .ok ∨ t.status = .rejected) ∧
    (exec (.run cmd) s = .next t → t.status = .ok ∨ t.status = .transportErr) ∧
    (exec (.wrcmd cmd len) s = .next t →
      t.status = .ok ∨ t.status = .transportErr ∨ t.status = .rejected) ∧
    (exec (.wrchain cmd len ndev) s = .next t →
      t.status = .ok ∨ t.status = .transportErr ∨ t.status = .rejected) ∧
    (exec .reserved7 s = .next t → t.status = .rejected)

/-! ### The machine as a whole -/

/-- Only `INIT` writes the table, and `TBL_READY` never returns to 0 (10_state.md section 5). -/
def Obligations.OnlyInitWritesTheTable : Prop :=
  ∀ (i : Instr) (s t : State), exec i s = .next t →
    (i ≠ .init → t.tbl = s.tbl ∧ t.tblReady = s.tblReady) ∧
    (s.tblReady = true → t.tblReady = true)

/-- No operation writes a request register or `TXBUF` (10_state.md sections 2 and 7). -/
def Obligations.HostOwnedStateIsNeverWritten : Prop :=
  ∀ (i : Instr) (s t : State), exec i s = .next t → hostOwnedKept s t

/-- Only `PEC15` writes `PEC_OUT`, and bit 0 of what it writes is 0 (10_state.md section 4). -/
def Obligations.OnlyPec15WritesPecOut : Prop :=
  ∀ (i : Instr) (s t : State), exec i s = .next t →
    ((∀ len, i ≠ .pec15 len) → t.pecOut = s.pecOut) ∧
    (t.pecOut ≠ s.pecOut → t.pecOut.getLsbD 0 = false)

/-- A single-device operation is the chained operation with one device (30_encoding.md section 7): the
same transport calls, the same results, the same outcome in every state. That `REM`, `FRAME`, `TERR` after
a success or a rejection, and `ERRMASK` and `RXBUF` after a failure agree too rests on how the model holds
them and draws its free values (logs 10 to 14, 25). -/
def Obligations.SingleDeviceIsChainOfOne : Prop :=
  ∀ (s : State) (cmd : Cmd) (len : Len),
    exec (.rdchain cmd len 1) s = exec (.rdcmd cmd len) s ∧
    exec (.wrchain cmd len 1) s = exec (.wrcmd cmd len) s

/-- An operation depends on no earlier outcome (41_command_framer.md section 3, 60_exceptions.md
section 6): two states with the same parameters, `TXBUF`, table and transport go to the same status and
make the same transport calls, and what the operation writes is the same, whatever their result
registers, request registers, `RXBUF`, `FRAME` and earlier trace hold. That `TERR` after a success, and
`ERRMASK` and `RXBUF` after a transport failure, agree rests on the free values being functions of the
count of draws (logs 10, 11, 12, 25). -/
def Obligations.EarlierOutcomesDoNotMatter : Prop :=
  ∀ (i : Instr) (s s' t : State), s'.config = s.config → s'.txbuf = s.txbuf → s'.tbl = s.tbl →
    s'.tblReady = s.tblReady → s'.answers = s.answers → s'.draws = s.draws →
    s.frame.wf = true → s'.frame.wf = true → s.rxbuf.wf = true → s'.rxbuf.wf = true →
    exec i s = .next t →
    ∃ t' calls, exec i s' = .next t' ∧ t'.status = t.status ∧
      t.trace = s.trace ++ calls ∧ t'.trace = s'.trace ++ calls ∧ t'.answers = t.answers ∧
      (isFramer i = true → t.status ≠ .rejected → t'.errmask = t.errmask ∧ t'.terr = t.terr ∧
        ∀ k, k < receivedCount i → t'.rxbuf.read k = t.rxbuf.read k) ∧
      (∀ len, i = .pec15 len → t.status = .ok → t'.pecOut = t.pecOut)

/-- Every step keeps the invariant: `CS` released with `SEQ` idle, the table the built one whenever it
is marked ready, the three buffers canonical and inside their sizes, bit 0 of `PEC_OUT` zero, and the
whole trace a sequence of whole transactions. -/
def Obligations.InvariantKeptByEveryStep : Prop :=
  ∀ s t : State, s.Inv → step s = .next t → t.Inv

/-- The invariant holds after reset. Of its parts, `PEC_OUT` and the buffers rest on the reset values
the model names (logs 6 and 7). -/
def Obligations.InvariantHoldsAtReset : Prop := State.reset.Inv

/-- Once the table is built no step ends in a fault or a refusal: every request, legal or not, ends in a
next state that meets the invariant. It rests on every transport call returning (20_memory.md section 6,
D17; log 4), on an illegal request being rejected (D7, D8, D9), and, where no request is to come, on the
step that changes nothing (log 2). -/
def Obligations.NoStopOnceTheTableIsBuilt : Prop :=
  ∀ s : State, s.Inv → s.tblReady = true → safeOutcome (step s)

/-- What reset leaves (70_reset_and_hazards.md section 1, decision D14): `CS` released, `SEQ` idle,
`TBL_READY` 0. The reset trace is empty and the parameter at its default (log 15, log 22). -/
def Obligations.ResetState : Prop :=
  State.reset.cs = .released ∧ State.reset.seq = .idle ∧ State.reset.tblReady = false ∧
    State.reset.trace = [] ∧ State.reset.config.maxDataLen = 8

/-- A step runs the decoded instruction (log 2): with `SEQ` idle, the host writes its next request to
the request registers and to `TXBUF` from index 0, and the step is `exec` of the instruction those
registers decode to. -/
def Obligations.StepRunsTheDecodedInstruction : Prop :=
  ∀ (s : State) (r : Request) (rest : List Request) (i : Instr), s.seq = .idle →
    s.requests = r :: rest → decode .req (requestImage r.op r.cmd r.len r.ndev) = .ok i →
    step s = exec i (s.accept r rest) ∧
      s.accept r rest = { s with
        op := r.op, cmd := r.cmd, len := r.len, ndev := r.ndev
        txbuf := s.txbuf.writeBytes 0 (r.payload.take (8 * s.config.maxDataLen))
        requests := rest }

/-- Where a step runs no instruction: with no request to come the block stays as it is (log 2); with
`SEQ` not idle the host has no move and the model stops (log 9). -/
def Obligations.StepWithoutAnInstruction : Prop :=
  ∀ s : State, (s.seq = .idle → s.requests = [] → step s = .next s) ∧
    (s.seq ≠ .idle → step s = .fault .blockBusy)

/-- The two wire rows of the opcode table are no operations (30_encoding.md section 4): the model
refuses them by name on every path (log 20). -/
def Obligations.WireFormatsAreRefused : Prop :=
  ∀ (s : State) (cmd : Cmd) (pec : Rem) (payload : List Byte),
    exec (.wireH cmd pec) s = .refused .wireFormatIsNoOperation ∧
    exec (.wireD payload pec) s = .refused .wireFormatIsNoOperation

/-- Every offset of a legal request lies inside its buffer (20_memory.md section 5). -/
def Obligations.OffsetsStayInsideTheBuffers : Prop :=
  ∀ (c : Config) (len : Len) (ndev : NDev) (i m : Nat), len.toNat ≤ c.maxDataLen →
    1 ≤ ndev.toNat → ndev.toNat ≤ 8 → i < ndev.toNat → m < len.toNat + 2 →
    (m < len.toNat → payloadOffset len.toNat i + m < txbufSize c) ∧
      recordOffset len.toNat i + m < rxbufSize c ∧
      segmentOffset len.toNat i + m < frameSize c

/-- Records that carry their own PECs read back as success (40_pec15.md section 6, in terms of the
operation): a chain whose every device answers with a whole segment gives `OK`, mask 0, and the payloads
in `RXBUF`, nearest device first. -/
def Obligations.IntactChainReadsOk : Prop :=
  ∀ (s : State) (cmd : Cmd) (len : Len) (ndev : NDev) (ignored : List Byte)
    (ds : List (List Byte)), s.tblReady = true → s.tableSound → s.frame.wf = true →
    s.rxbuf.wf = true → len.toNat ≤ s.config.maxDataLen → 1 ≤ ndev.toNat → ndev.toNat ≤ 8 →
    ds.length = ndev.toNat → (∀ d ∈ ds, d.length = len.toNat) → s.answer = .ok ignored →
    s.answered.answer = .ok (ds.flatMap (seg builtTable)) →
    ∃ t, exec (.rdchain cmd len ndev) s = .next t ∧ t.status = .ok ∧ t.errmask = 0 ∧
      ∀ i m, i < ndev.toNat → m < len.toNat →
        t.rxbuf.read (i * (len.toNat + 2) + m) = (ds.getD i []).getD m 0

/-- One flipped payload bit at one position of a chain is reported at that position and no other, and
the other devices' payloads are returned intact (95_test_vectors.md section 1.4). -/
def Obligations.ChainedReadIsolation : Prop :=
  ∀ (s : State) (cmd : Cmd) (len : Len) (ndev : NDev) (ignored : List Byte)
    (ds : Nat → List Byte) (k j b : Nat), s.tblReady = true → s.tableSound →
    s.frame.wf = true → s.rxbuf.wf = true → len.toNat ≤ s.config.maxDataLen → ndev.toNat ≤ 8 →
    (∀ i, i < ndev.toNat → (ds i).length = len.toNat) → k < ndev.toNat → j < len.toNat → b < 8 →
    s.answer = .ok ignored →
    s.answered.answer = .ok ((List.range ndev.toNat).flatMap fun i =>
      (if i = k then flipBit (ds i) j b else ds i) ++ pecBytes (pec15 builtTable (ds i))) →
    ∃ t, exec (.rdchain cmd len ndev) s = .next t ∧ t.status = .pecMismatch ∧
      t.errmask = 1#8 <<< k ∧
      ∀ i m, i < ndev.toNat → i ≠ k → m < len.toNat →
        t.rxbuf.read (i * (len.toNat + 2) + m) = (ds i).getD m 0
end

