-- ==== Sys2Proof/Laws/Crc.lean ====
section
/-!
SUPPORT. Small laws of the PEC15 generator's functions: lengths, the entries of the built table, the
shape of a PEC, bytes and values of a PEC.
-/

namespace Sys2Proof.Machine

@[simp] theorem pecBytes_length (p : Pec) : (pecBytes p).length = 2 := rfl

@[simp] theorem cmdBytes_length (cmd : Cmd) : (cmdBytes cmd).length = 2 := rfl

@[simp] theorem hdr_length (t : Table) (cmd : Cmd) : (hdr t cmd).length = 4 := rfl

@[simp] theorem seg_length (t : Table) (d : List Byte) : (seg t d).length = d.length + 2 := by
  simp [seg]

/-- An entry of the built table is the entry `INIT` computes. -/
@[simp] theorem lookup_builtTable (b : Byte) : lookup builtTable b = tableEntry b := by
  unfold lookup builtTable
  simp

@[simp] theorem crcRem_nil (t : Table) : crcRem t [] = seed := rfl

/-- One more byte at the end is one more `UPD`. -/
theorem crcRem_concat (t : Table) (s : List Byte) (b : Byte) :
    crcRem t (s ++ [b]) = upd t (crcRem t s) b := by
  simp [crcRem]

/-- The value of the two wire bytes of a PEC is that PEC. -/
@[simp] theorem pecValue_pecBytes (p : Pec) :
    pecValue (p.extractLsb' 8 8) (p.extractLsb' 0 8) = p := by
  unfold pecValue
  ext i hi
  simp only [BitVec.getElem_append, BitVec.getElem_extractLsb']
  split
  · simp [BitVec.getLsbD_eq_getElem hi]
  · rw [show 8 + (i - 8) = i by omega, BitVec.getLsbD_eq_getElem hi]

/-- Bit 0 of a PEC the block computes is 0. -/
@[simp] theorem pecOf_getElem_zero (r : Rem) : (pecOf r)[0] = false := by
  simp [pecOf]

theorem pecOf_bit_zero (r : Rem) : (pecOf r).getLsbD 0 = false := by
  simp

/-- Bits 15:1 of a PEC the block computes are the remainder. -/
@[simp] theorem pecOf_remainder (r : Rem) : (pecOf r).extractLsb' 1 15 = r := by
  ext i hi
  simp only [pecOf, BitVec.getElem_extractLsb', BitVec.getLsbD_shiftLeft, BitVec.getLsbD_setWidth]
  rw [BitVec.getLsbD_eq_getElem (by omega : 1 + i - 1 < 15)]
  simp [show 1 + i < 16 by omega, show i < 16 by omega]

/-- Different remainders give different PECs. -/
theorem pecOf_injective {r r' : Rem} (h : pecOf r = pecOf r') : r = r' := by
  rw [← pecOf_remainder r, h, pecOf_remainder]

end Sys2Proof.Machine
end

