-- ==== Sys2Proof/Laws/Memory.lean ====
section
/-!
SUPPORT. Laws of the buffer operations: a read after a write, the canonical form kept, the bounds kept.
-/

namespace Sys2Proof.Machine

theorem Memory.risesFrom_of_le {lo lo' : Nat} (h : lo' ≤ lo) :
    ∀ {m : Memory}, m.risesFrom lo = true → m.risesFrom lo' = true
  | [], _ => rfl
  | (a, v) :: m, hm => by
    simp only [Memory.risesFrom, Bool.and_eq_true, decide_eq_true_eq] at hm ⊢
    exact ⟨⟨by omega, hm.1.2⟩, hm.2⟩

theorem Memory.read_below {lo a : Nat} (h : a < lo) :
    ∀ {m : Memory}, m.risesFrom lo = true → m.read a = unwritten
  | [], _ => rfl
  | (b, v) :: m, hm => by
    simp only [Memory.risesFrom, Bool.and_eq_true, decide_eq_true_eq] at hm
    have hb : b ≠ a := by omega
    simp only [Memory.read, if_neg hb]
    exact Memory.read_below (by omega) hm.2

theorem Memory.risesFrom_cell {lo a : Nat} {v : Byte} {m : Memory} (h : lo ≤ a)
    (hm : m.risesFrom (a + 1) = true) : (Memory.cell a v m).risesFrom lo = true := by
  unfold Memory.cell
  split
  · exact Memory.risesFrom_of_le (by omega) hm
  · simp [Memory.risesFrom, *]

theorem Memory.risesFrom_write {a : Nat} {v : Byte} :
    ∀ {m : Memory} {lo : Nat}, lo ≤ a → m.risesFrom lo = true →
      (m.write a v).risesFrom lo = true
  | [], lo, h, _ => Memory.risesFrom_cell h rfl
  | (b, w) :: m, lo, h, hm => by
    have hm' := hm
    simp only [Memory.risesFrom, Bool.and_eq_true, decide_eq_true_eq] at hm
    unfold Memory.write
    split
    · refine Memory.risesFrom_cell h ?_
      simp only [Memory.risesFrom, Bool.and_eq_true, decide_eq_true_eq]
      exact ⟨⟨by omega, hm.1.2⟩, hm.2⟩
    · split
      · subst_vars
        exact Memory.risesFrom_cell h hm.2
      · simp only [Memory.risesFrom, Bool.and_eq_true, decide_eq_true_eq]
        exact ⟨hm.1, Memory.risesFrom_write (by omega) hm.2⟩

/-- A write keeps the canonical form. -/
theorem Memory.write_wf {m : Memory} (a : Nat) (v : Byte) (h : m.wf = true) :
    (m.write a v).wf = true :=
  Memory.risesFrom_write (Nat.zero_le a) h

/-- Writing a run of bytes keeps the canonical form. -/
theorem Memory.writeBytes_wf :
    ∀ (bs : List Byte) {m : Memory} (a : Nat), m.wf = true → (m.writeBytes a bs).wf = true
  | [], _, _, h => h
  | v :: vs, _, a, h => Memory.writeBytes_wf vs (a + 1) (Memory.write_wf a v h)

/-- The empty buffer is in the canonical form. -/
@[simp] theorem Memory.nil_wf : Memory.wf [] = true := rfl

/-- The buffers of the reset state are in the canonical form. -/
theorem reset_buffers_wf : State.reset.txbuf.wf = true ∧ State.reset.rxbuf.wf = true ∧
    State.reset.frame.wf = true := ⟨rfl, rfl, rfl⟩

/-- A filled buffer is in the canonical form. -/
theorem Memory.filled_wf (n : Nat) (f : Nat → Byte) : (Memory.filled n f).wf = true :=
  Memory.writeBytes_wf _ 0 Memory.nil_wf

theorem Memory.read_cell_self (a : Nat) (v : Byte) {m : Memory} (h : m.risesFrom (a + 1) = true) :
    (Memory.cell a v m).read a = v := by
  unfold Memory.cell
  split
  · rw [Memory.read_below (Nat.lt_succ_self a) h, ‹v = unwritten›]
  · simp [Memory.read]

theorem Memory.read_cell_ne {a b : Nat} (v : Byte) (m : Memory) (h : a ≠ b) :
    (Memory.cell a v m).read b = m.read b := by
  unfold Memory.cell
  split
  · rfl
  · simp [Memory.read, h]

theorem Memory.read_write_self_from {a : Nat} {v : Byte} :
    ∀ {m : Memory} {lo : Nat}, m.risesFrom lo = true → (m.write a v).read a = v
  | [], _, _ => Memory.read_cell_self a v rfl
  | (b, w) :: m, lo, hm => by
    simp only [Memory.risesFrom, Bool.and_eq_true, decide_eq_true_eq] at hm
    unfold Memory.write
    split
    · refine Memory.read_cell_self a v ?_
      simp only [Memory.risesFrom, Bool.and_eq_true, decide_eq_true_eq]
      exact ⟨⟨by omega, hm.1.2⟩, hm.2⟩
    · split
      · subst_vars
        exact Memory.read_cell_self _ v hm.2
      · have hb : b ≠ a := by omega
        simp only [Memory.read, if_neg hb]
        exact Memory.read_write_self_from hm.2

/-- A read at the index just written gives the value written. -/
theorem Memory.read_write_self {m : Memory} (a : Nat) (v : Byte) (h : m.wf = true) :
    (m.write a v).read a = v :=
  Memory.read_write_self_from h

/-- A write leaves every other index alone. -/
theorem Memory.read_write_ne {a b : Nat} (v : Byte) (h : a ≠ b) :
    ∀ m : Memory, (m.write a v).read b = m.read b
  | [] => Memory.read_cell_ne v [] h
  | (c, w) :: m => by
    unfold Memory.write
    split
    · exact Memory.read_cell_ne v _ h
    · split
      · subst_vars
        rw [Memory.read_cell_ne v _ h]
        simp [Memory.read, h]
      · simp only [Memory.read]
        split
        · rfl
        · exact Memory.read_write_ne v h m

/-- Writing a run of bytes leaves every index outside it alone. -/
theorem Memory.read_writeBytes_outside {b : Nat} :
    ∀ (bs : List Byte) (m : Memory) (a : Nat), b < a ∨ a + bs.length ≤ b →
      (m.writeBytes a bs).read b = m.read b
  | [], _, _, _ => rfl
  | v :: vs, m, a, h => by
    rw [List.length_cons] at h
    rw [Memory.writeBytes, Memory.read_writeBytes_outside vs _ (a + 1) (by omega),
      Memory.read_write_ne v (by omega)]

/-- Inside a run of written bytes, a read gives the byte written there. -/
theorem Memory.read_writeBytes_inside :
    ∀ (bs : List Byte) {m : Memory} (a k : Nat), m.wf = true → k < bs.length →
      (m.writeBytes a bs).read (a + k) = bs.getD k 0
  | v :: vs, m, a, k, hm, hk => by
    rw [Memory.writeBytes]
    cases k with
    | zero =>
      rw [Memory.read_writeBytes_outside vs _ (a + 1) (by omega), Nat.add_zero,
        Memory.read_write_self a v hm]
      rfl
    | succ k =>
      rw [show a + (k + 1) = a + 1 + k by omega,
        Memory.read_writeBytes_inside vs (a + 1) k (Memory.write_wf a v hm) (by simpa using hk)]
      rfl

@[simp] theorem Memory.readBytes_length (m : Memory) :
    ∀ (n a : Nat), (m.readBytes a n).length = n
  | 0, _ => rfl
  | n + 1, a => by simp [Memory.readBytes, Memory.readBytes_length m n (a + 1)]

/-- Reading a run depends on nothing but the bytes at its indices. -/
theorem Memory.readBytes_congr {m m' : Memory} :
    ∀ (n a : Nat), (∀ k, a ≤ k → k < a + n → m.read k = m'.read k) →
      m.readBytes a n = m'.readBytes a n
  | 0, _, _ => rfl
  | n + 1, a, h => by
    rw [Memory.readBytes, Memory.readBytes, h a (by omega) (by omega),
      Memory.readBytes_congr n (a + 1) fun k h1 h2 => h k (by omega) (by omega)]

theorem Memory.readBytes_append (m : Memory) :
    ∀ (n k a : Nat), m.readBytes a (n + k) = m.readBytes a n ++ m.readBytes (a + n) k
  | 0, k, a => by simp [Memory.readBytes]
  | n + 1, k, a => by
    rw [show n + 1 + k = n + k + 1 by omega, Memory.readBytes, Memory.readBytes,
      Memory.readBytes_append m n k (a + 1), show a + 1 + n = a + (n + 1) by omega]
    rfl

/-- Reading back a run of bytes just written. -/
theorem Memory.readBytes_writeBytes_self :
    ∀ (bs : List Byte) {m : Memory} (a : Nat), m.wf = true →
      (m.writeBytes a bs).readBytes a bs.length = bs
  | [], _, _, _ => rfl
  | v :: vs, m, a, hm => by
    rw [List.length_cons, Memory.readBytes, Memory.writeBytes,
      Memory.read_writeBytes_outside vs _ (a + 1) (by omega), Memory.read_write_self a v hm,
      Memory.readBytes_writeBytes_self vs (a + 1) (Memory.write_wf a v hm)]

/-- Reading a run that ends before the bytes just written. -/
theorem Memory.readBytes_writeBytes_before (bs : List Byte) (m : Memory) {a b n : Nat}
    (h : a + n ≤ b) : (m.writeBytes b bs).readBytes a n = m.readBytes a n :=
  Memory.readBytes_congr n a fun _ _ _ => Memory.read_writeBytes_outside bs m b (by omega)

theorem Memory.within_cell {n a : Nat} {v : Byte} {m : Memory} (ha : a < n)
    (h : m.within n = true) : (Memory.cell a v m).within n = true := by
  unfold Memory.cell
  split
  · exact h
  · simpa [Memory.within, ha] using h

/-- A write inside the bounds keeps the bounds. -/
theorem Memory.write_within {n a : Nat} {v : Byte} (ha : a < n) :
    ∀ {m : Memory}, m.within n = true → (m.write a v).within n = true
  | [], h => Memory.within_cell ha h
  | (b, w) :: m, h => by
    have hm : b < n ∧ Memory.within n m = true := by simpa [Memory.within] using h
    unfold Memory.write
    split
    · exact Memory.within_cell ha h
    · split
      · exact Memory.within_cell ha hm.2
      · have := Memory.write_within (v := v) ha hm.2
        simp only [Memory.within, List.all_cons, Bool.and_eq_true, decide_eq_true_eq]
        exact ⟨hm.1, this⟩

/-- Writing a run inside the bounds keeps the bounds. -/
theorem Memory.writeBytes_within {n : Nat} :
    ∀ (bs : List Byte) {m : Memory} (a : Nat), a + bs.length ≤ n → m.within n = true →
      (m.writeBytes a bs).within n = true
  | [], _, _, _, h => h
  | v :: vs, _, a, hn, h => by
    rw [List.length_cons] at hn
    exact Memory.writeBytes_within vs (a + 1) (by omega) (Memory.write_within (by omega) h)

/-- A buffer filled to `n` bytes lies inside `n` bytes. -/
theorem Memory.filled_within (n : Nat) (f : Nat → Byte) : (Memory.filled n f).within n = true :=
  Memory.writeBytes_within _ 0 (by simp) rfl

/-- A filled buffer reads as its function inside its size. -/
theorem Memory.read_filled {n i : Nat} (f : Nat → Byte) (h : i < n) :
    (Memory.filled n f).read i = f i := by
  have := Memory.read_writeBytes_inside ((List.range n).map f) 0 i Memory.nil_wf (by simpa using h)
  rw [Nat.zero_add] at this
  simpa [Memory.filled, h] using this

end Sys2Proof.Machine
end

