-- ==== Sys2Proof/Laws/State.lean ====
section
/-!
SUPPORT. One lemma for each field after each of the state's named updates, so that no later proof
unfolds a record update.
-/

namespace Sys2Proof.Machine

variable (s : State)

@[simp] theorem State.accept_op (r : Request) (rest : List Request) :
    (s.accept r rest).op = r.op := rfl
@[simp] theorem State.accept_cmd (r : Request) (rest : List Request) :
    (s.accept r rest).cmd = r.cmd := rfl
@[simp] theorem State.accept_len (r : Request) (rest : List Request) :
    (s.accept r rest).len = r.len := rfl
@[simp] theorem State.accept_ndev (r : Request) (rest : List Request) :
    (s.accept r rest).ndev = r.ndev := rfl
@[simp] theorem State.accept_txbuf (r : Request) (rest : List Request) :
    (s.accept r rest).txbuf = s.txbuf.writeBytes 0 (r.payload.take (txbufSize s.config)) := rfl
@[simp] theorem State.accept_rxbuf (r : Request) (rest : List Request) :
    (s.accept r rest).rxbuf = s.rxbuf := rfl
@[simp] theorem State.accept_frame (r : Request) (rest : List Request) :
    (s.accept r rest).frame = s.frame := rfl
@[simp] theorem State.accept_tbl (r : Request) (rest : List Request) :
    (s.accept r rest).tbl = s.tbl := rfl
@[simp] theorem State.accept_tblReady (r : Request) (rest : List Request) :
    (s.accept r rest).tblReady = s.tblReady := rfl
@[simp] theorem State.accept_rem (r : Request) (rest : List Request) :
    (s.accept r rest).rem = s.rem := rfl
@[simp] theorem State.accept_status (r : Request) (rest : List Request) :
    (s.accept r rest).status = s.status := rfl
@[simp] theorem State.accept_errmask (r : Request) (rest : List Request) :
    (s.accept r rest).errmask = s.errmask := rfl
@[simp] theorem State.accept_terr (r : Request) (rest : List Request) :
    (s.accept r rest).terr = s.terr := rfl
@[simp] theorem State.accept_pecOut (r : Request) (rest : List Request) :
    (s.accept r rest).pecOut = s.pecOut := rfl
@[simp] theorem State.accept_cs (r : Request) (rest : List Request) :
    (s.accept r rest).cs = s.cs := rfl
@[simp] theorem State.accept_seq (r : Request) (rest : List Request) :
    (s.accept r rest).seq = s.seq := rfl
@[simp] theorem State.accept_config (r : Request) (rest : List Request) :
    (s.accept r rest).config = s.config := rfl
@[simp] theorem State.accept_requests (r : Request) (rest : List Request) :
    (s.accept r rest).requests = rest := rfl
@[simp] theorem State.accept_answers (r : Request) (rest : List Request) :
    (s.accept r rest).answers = s.answers := rfl
@[simp] theorem State.accept_trace (r : Request) (rest : List Request) :
    (s.accept r rest).trace = s.trace := rfl
@[simp] theorem State.accept_draws (r : Request) (rest : List Request) :
    (s.accept r rest).draws = s.draws := rfl

@[simp] theorem State.select_op : (s.select).op = s.op := rfl
@[simp] theorem State.select_cmd : (s.select).cmd = s.cmd := rfl
@[simp] theorem State.select_len : (s.select).len = s.len := rfl
@[simp] theorem State.select_ndev : (s.select).ndev = s.ndev := rfl
@[simp] theorem State.select_txbuf : (s.select).txbuf = s.txbuf := rfl
@[simp] theorem State.select_rxbuf : (s.select).rxbuf = s.rxbuf := rfl
@[simp] theorem State.select_frame : (s.select).frame = s.frame := rfl
@[simp] theorem State.select_tbl : (s.select).tbl = s.tbl := rfl
@[simp] theorem State.select_tblReady : (s.select).tblReady = s.tblReady := rfl
@[simp] theorem State.select_rem : (s.select).rem = s.rem := rfl
@[simp] theorem State.select_status : (s.select).status = s.status := rfl
@[simp] theorem State.select_errmask : (s.select).errmask = s.errmask := rfl
@[simp] theorem State.select_terr : (s.select).terr = s.terr := rfl
@[simp] theorem State.select_pecOut : (s.select).pecOut = s.pecOut := rfl
@[simp] theorem State.select_cs : (s.select).cs = .asserted := rfl
@[simp] theorem State.select_seq : (s.select).seq = .selected := rfl
@[simp] theorem State.select_config : (s.select).config = s.config := rfl
@[simp] theorem State.select_requests : (s.select).requests = s.requests := rfl
@[simp] theorem State.select_answers : (s.select).answers = s.answers := rfl
@[simp] theorem State.select_trace : (s.select).trace = s.trace ++ [.select] := rfl
@[simp] theorem State.select_draws : (s.select).draws = s.draws := rfl

@[simp] theorem State.deselect_op : (s.deselect).op = s.op := rfl
@[simp] theorem State.deselect_cmd : (s.deselect).cmd = s.cmd := rfl
@[simp] theorem State.deselect_len : (s.deselect).len = s.len := rfl
@[simp] theorem State.deselect_ndev : (s.deselect).ndev = s.ndev := rfl
@[simp] theorem State.deselect_txbuf : (s.deselect).txbuf = s.txbuf := rfl
@[simp] theorem State.deselect_rxbuf : (s.deselect).rxbuf = s.rxbuf := rfl
@[simp] theorem State.deselect_frame : (s.deselect).frame = s.frame := rfl
@[simp] theorem State.deselect_tbl : (s.deselect).tbl = s.tbl := rfl
@[simp] theorem State.deselect_tblReady : (s.deselect).tblReady = s.tblReady := rfl
@[simp] theorem State.deselect_rem : (s.deselect).rem = s.rem := rfl
@[simp] theorem State.deselect_status : (s.deselect).status = s.status := rfl
@[simp] theorem State.deselect_errmask : (s.deselect).errmask = s.errmask := rfl
@[simp] theorem State.deselect_terr : (s.deselect).terr = s.terr := rfl
@[simp] theorem State.deselect_pecOut : (s.deselect).pecOut = s.pecOut := rfl
@[simp] theorem State.deselect_cs : (s.deselect).cs = .released := rfl
@[simp] theorem State.deselect_seq : (s.deselect).seq = .idle := rfl
@[simp] theorem State.deselect_config : (s.deselect).config = s.config := rfl
@[simp] theorem State.deselect_requests : (s.deselect).requests = s.requests := rfl
@[simp] theorem State.deselect_answers : (s.deselect).answers = s.answers := rfl
@[simp] theorem State.deselect_trace : (s.deselect).trace = s.trace ++ [.deselect] := rfl
@[simp] theorem State.deselect_draws : (s.deselect).draws = s.draws := rfl

@[simp] theorem State.answered_op : (s.answered).op = s.op := by
  unfold State.answered; split <;> rfl
@[simp] theorem State.answered_cmd : (s.answered).cmd = s.cmd := by
  unfold State.answered; split <;> rfl
@[simp] theorem State.answered_len : (s.answered).len = s.len := by
  unfold State.answered; split <;> rfl
@[simp] theorem State.answered_ndev : (s.answered).ndev = s.ndev := by
  unfold State.answered; split <;> rfl
@[simp] theorem State.answered_txbuf : (s.answered).txbuf = s.txbuf := by
  unfold State.answered; split <;> rfl
@[simp] theorem State.answered_rxbuf : (s.answered).rxbuf = s.rxbuf := by
  unfold State.answered; split <;> rfl
@[simp] theorem State.answered_frame : (s.answered).frame = s.frame := by
  unfold State.answered; split <;> rfl
@[simp] theorem State.answered_tbl : (s.answered).tbl = s.tbl := by
  unfold State.answered; split <;> rfl
@[simp] theorem State.answered_tblReady : (s.answered).tblReady = s.tblReady := by
  unfold State.answered; split <;> rfl
@[simp] theorem State.answered_rem : (s.answered).rem = s.rem := by
  unfold State.answered; split <;> rfl
@[simp] theorem State.answered_status : (s.answered).status = s.status := by
  unfold State.answered; split <;> rfl
@[simp] theorem State.answered_errmask : (s.answered).errmask = s.errmask := by
  unfold State.answered; split <;> rfl
@[simp] theorem State.answered_terr : (s.answered).terr = s.terr := by
  unfold State.answered; split <;> rfl
@[simp] theorem State.answered_pecOut : (s.answered).pecOut = s.pecOut := by
  unfold State.answered; split <;> rfl
@[simp] theorem State.answered_cs : (s.answered).cs = s.cs := by
  unfold State.answered; split <;> rfl
@[simp] theorem State.answered_seq : (s.answered).seq = s.seq := by
  unfold State.answered; split <;> rfl
@[simp] theorem State.answered_config : (s.answered).config = s.config := by
  unfold State.answered; split <;> rfl
@[simp] theorem State.answered_requests : (s.answered).requests = s.requests := by
  unfold State.answered; split <;> rfl
@[simp] theorem State.answered_trace : (s.answered).trace = s.trace := by
  unfold State.answered; split <;> rfl

@[simp] theorem State.sendBytes_op (bytes : List Byte) :
    (s.sendBytes bytes).op = s.op := s.answered_op
@[simp] theorem State.sendBytes_cmd (bytes : List Byte) :
    (s.sendBytes bytes).cmd = s.cmd := s.answered_cmd
@[simp] theorem State.sendBytes_len (bytes : List Byte) :
    (s.sendBytes bytes).len = s.len := s.answered_len
@[simp] theorem State.sendBytes_ndev (bytes : List Byte) :
    (s.sendBytes bytes).ndev = s.ndev := s.answered_ndev
@[simp] theorem State.sendBytes_txbuf (bytes : List Byte) :
    (s.sendBytes bytes).txbuf = s.txbuf := s.answered_txbuf
@[simp] theorem State.sendBytes_rxbuf (bytes : List Byte) :
    (s.sendBytes bytes).rxbuf = s.rxbuf := s.answered_rxbuf
@[simp] theorem State.sendBytes_frame (bytes : List Byte) :
    (s.sendBytes bytes).frame = s.frame := s.answered_frame
@[simp] theorem State.sendBytes_tbl (bytes : List Byte) :
    (s.sendBytes bytes).tbl = s.tbl := s.answered_tbl
@[simp] theorem State.sendBytes_tblReady (bytes : List Byte) :
    (s.sendBytes bytes).tblReady = s.tblReady := s.answered_tblReady
@[simp] theorem State.sendBytes_rem (bytes : List Byte) :
    (s.sendBytes bytes).rem = s.rem := s.answered_rem
@[simp] theorem State.sendBytes_status (bytes : List Byte) :
    (s.sendBytes bytes).status = s.status := s.answered_status
@[simp] theorem State.sendBytes_errmask (bytes : List Byte) :
    (s.sendBytes bytes).errmask = s.errmask := s.answered_errmask
@[simp] theorem State.sendBytes_terr (bytes : List Byte) :
    (s.sendBytes bytes).terr = s.terr := s.answered_terr
@[simp] theorem State.sendBytes_pecOut (bytes : List Byte) :
    (s.sendBytes bytes).pecOut = s.pecOut := s.answered_pecOut
@[simp] theorem State.sendBytes_cs (bytes : List Byte) :
    (s.sendBytes bytes).cs = s.cs := s.answered_cs
@[simp] theorem State.sendBytes_seq (bytes : List Byte) :
    (s.sendBytes bytes).seq = if s.sendFailure.isNone then .sent else s.seq := rfl
@[simp] theorem State.sendBytes_config (bytes : List Byte) :
    (s.sendBytes bytes).config = s.config := s.answered_config
@[simp] theorem State.sendBytes_requests (bytes : List Byte) :
    (s.sendBytes bytes).requests = s.requests := s.answered_requests
@[simp] theorem State.sendBytes_answers (bytes : List Byte) :
    (s.sendBytes bytes).answers = s.answered.answers := rfl
@[simp] theorem State.sendBytes_trace (bytes : List Byte) :
    (s.sendBytes bytes).trace = s.trace ++ [.transferOut bytes s.sendFailure] := rfl
@[simp] theorem State.sendBytes_draws (bytes : List Byte) :
    (s.sendBytes bytes).draws = s.answered.draws := rfl

@[simp] theorem State.receiveBytes_op (count : Nat) :
    (s.receiveBytes count).op = s.op := s.answered_op
@[simp] theorem State.receiveBytes_cmd (count : Nat) :
    (s.receiveBytes count).cmd = s.cmd := s.answered_cmd
@[simp] theorem State.receiveBytes_len (count : Nat) :
    (s.receiveBytes count).len = s.len := s.answered_len
@[simp] theorem State.receiveBytes_ndev (count : Nat) :
    (s.receiveBytes count).ndev = s.ndev := s.answered_ndev
@[simp] theorem State.receiveBytes_txbuf (count : Nat) :
    (s.receiveBytes count).txbuf = s.txbuf := s.answered_txbuf
@[simp] theorem State.receiveBytes_rxbuf (count : Nat) :
    (s.receiveBytes count).rxbuf = s.rxbuf := s.answered_rxbuf
@[simp] theorem State.receiveBytes_frame (count : Nat) :
    (s.receiveBytes count).frame = s.frame := s.answered_frame
@[simp] theorem State.receiveBytes_tbl (count : Nat) :
    (s.receiveBytes count).tbl = s.tbl := s.answered_tbl
@[simp] theorem State.receiveBytes_tblReady (count : Nat) :
    (s.receiveBytes count).tblReady = s.tblReady := s.answered_tblReady
@[simp] theorem State.receiveBytes_rem (count : Nat) :
    (s.receiveBytes count).rem = s.rem := s.answered_rem
@[simp] theorem State.receiveBytes_status (count : Nat) :
    (s.receiveBytes count).status = s.status := s.answered_status
@[simp] theorem State.receiveBytes_errmask (count : Nat) :
    (s.receiveBytes count).errmask = s.errmask := s.answered_errmask
@[simp] theorem State.receiveBytes_terr (count : Nat) :
    (s.receiveBytes count).terr = s.terr := s.answered_terr
@[simp] theorem State.receiveBytes_pecOut (count : Nat) :
    (s.receiveBytes count).pecOut = s.pecOut := s.answered_pecOut
@[simp] theorem State.receiveBytes_cs (count : Nat) :
    (s.receiveBytes count).cs = s.cs := s.answered_cs
@[simp] theorem State.receiveBytes_seq (count : Nat) :
    (s.receiveBytes count).seq = phaseAfterReceive (s.receiveAnswer count) s.seq := rfl
@[simp] theorem State.receiveBytes_config (count : Nat) :
    (s.receiveBytes count).config = s.config := s.answered_config
@[simp] theorem State.receiveBytes_requests (count : Nat) :
    (s.receiveBytes count).requests = s.requests := s.answered_requests
@[simp] theorem State.receiveBytes_answers (count : Nat) :
    (s.receiveBytes count).answers = s.answered.answers := rfl
@[simp] theorem State.receiveBytes_trace (count : Nat) :
    (s.receiveBytes count).trace = s.trace ++ [.transferIn count (s.receiveAnswer count)] := rfl
@[simp] theorem State.receiveBytes_draws (count : Nat) :
    (s.receiveBytes count).draws = s.answered.draws := rfl

@[simp] theorem State.putHeader_op (c : Cmd) : (s.putHeader c).op = s.op := rfl
@[simp] theorem State.putHeader_cmd (c : Cmd) : (s.putHeader c).cmd = s.cmd := rfl
@[simp] theorem State.putHeader_len (c : Cmd) : (s.putHeader c).len = s.len := rfl
@[simp] theorem State.putHeader_ndev (c : Cmd) : (s.putHeader c).ndev = s.ndev := rfl
@[simp] theorem State.putHeader_txbuf (c : Cmd) : (s.putHeader c).txbuf = s.txbuf := rfl
@[simp] theorem State.putHeader_rxbuf (c : Cmd) : (s.putHeader c).rxbuf = s.rxbuf := rfl
@[simp] theorem State.putHeader_frame (c : Cmd) :
    (s.putHeader c).frame = s.frame.writeBytes 0 (hdr s.tbl c) := rfl
@[simp] theorem State.putHeader_tbl (c : Cmd) : (s.putHeader c).tbl = s.tbl := rfl
@[simp] theorem State.putHeader_tblReady (c : Cmd) : (s.putHeader c).tblReady = s.tblReady := rfl
@[simp] theorem State.putHeader_rem (c : Cmd) :
    (s.putHeader c).rem = crcRem s.tbl (cmdBytes c) := rfl
@[simp] theorem State.putHeader_status (c : Cmd) : (s.putHeader c).status = s.status := rfl
@[simp] theorem State.putHeader_errmask (c : Cmd) : (s.putHeader c).errmask = s.errmask := rfl
@[simp] theorem State.putHeader_terr (c : Cmd) : (s.putHeader c).terr = s.terr := rfl
@[simp] theorem State.putHeader_pecOut (c : Cmd) : (s.putHeader c).pecOut = s.pecOut := rfl
@[simp] theorem State.putHeader_cs (c : Cmd) : (s.putHeader c).cs = s.cs := rfl
@[simp] theorem State.putHeader_seq (c : Cmd) : (s.putHeader c).seq = s.seq := rfl
@[simp] theorem State.putHeader_config (c : Cmd) : (s.putHeader c).config = s.config := rfl
@[simp] theorem State.putHeader_requests (c : Cmd) : (s.putHeader c).requests = s.requests := rfl
@[simp] theorem State.putHeader_answers (c : Cmd) : (s.putHeader c).answers = s.answers := rfl
@[simp] theorem State.putHeader_trace (c : Cmd) : (s.putHeader c).trace = s.trace := rfl
@[simp] theorem State.putHeader_draws (c : Cmd) : (s.putHeader c).draws = s.draws := rfl

@[simp] theorem State.putSegment_op (dst : Nat) (d : List Byte) :
    (s.putSegment dst d).op = s.op := rfl
@[simp] theorem State.putSegment_cmd (dst : Nat) (d : List Byte) :
    (s.putSegment dst d).cmd = s.cmd := rfl
@[simp] theorem State.putSegment_len (dst : Nat) (d : List Byte) :
    (s.putSegment dst d).len = s.len := rfl
@[simp] theorem State.putSegment_ndev (dst : Nat) (d : List Byte) :
    (s.putSegment dst d).ndev = s.ndev := rfl
@[simp] theorem State.putSegment_txbuf (dst : Nat) (d : List Byte) :
    (s.putSegment dst d).txbuf = s.txbuf := rfl
@[simp] theorem State.putSegment_rxbuf (dst : Nat) (d : List Byte) :
    (s.putSegment dst d).rxbuf = s.rxbuf := rfl
@[simp] theorem State.putSegment_frame (dst : Nat) (d : List Byte) :
    (s.putSegment dst d).frame = s.frame.writeBytes dst (seg s.tbl d) := rfl
@[simp] theorem State.putSegment_tbl (dst : Nat) (d : List Byte) :
    (s.putSegment dst d).tbl = s.tbl := rfl
@[simp] theorem State.putSegment_tblReady (dst : Nat) (d : List Byte) :
    (s.putSegment dst d).tblReady = s.tblReady := rfl
@[simp] theorem State.putSegment_rem (dst : Nat) (d : List Byte) :
    (s.putSegment dst d).rem = crcRem s.tbl d := rfl
@[simp] theorem State.putSegment_status (dst : Nat) (d : List Byte) :
    (s.putSegment dst d).status = s.status := rfl
@[simp] theorem State.putSegment_errmask (dst : Nat) (d : List Byte) :
    (s.putSegment dst d).errmask = s.errmask := rfl
@[simp] theorem State.putSegment_terr (dst : Nat) (d : List Byte) :
    (s.putSegment dst d).terr = s.terr := rfl
@[simp] theorem State.putSegment_pecOut (dst : Nat) (d : List Byte) :
    (s.putSegment dst d).pecOut = s.pecOut := rfl
@[simp] theorem State.putSegment_cs (dst : Nat) (d : List Byte) :
    (s.putSegment dst d).cs = s.cs := rfl
@[simp] theorem State.putSegment_seq (dst : Nat) (d : List Byte) :
    (s.putSegment dst d).seq = s.seq := rfl
@[simp] theorem State.putSegment_config (dst : Nat) (d : List Byte) :
    (s.putSegment dst d).config = s.config := rfl
@[simp] theorem State.putSegment_requests (dst : Nat) (d : List Byte) :
    (s.putSegment dst d).requests = s.requests := rfl
@[simp] theorem State.putSegment_answers (dst : Nat) (d : List Byte) :
    (s.putSegment dst d).answers = s.answers := rfl
@[simp] theorem State.putSegment_trace (dst : Nat) (d : List Byte) :
    (s.putSegment dst d).trace = s.trace := rfl
@[simp] theorem State.putSegment_draws (dst : Nat) (d : List Byte) :
    (s.putSegment dst d).draws = s.draws := rfl

@[simp] theorem State.storeReceived_op (rx : List Byte) : (s.storeReceived rx).op = s.op := rfl
@[simp] theorem State.storeReceived_cmd (rx : List Byte) : (s.storeReceived rx).cmd = s.cmd := rfl
@[simp] theorem State.storeReceived_len (rx : List Byte) : (s.storeReceived rx).len = s.len := rfl
@[simp] theorem State.storeReceived_ndev (rx : List Byte) :
    (s.storeReceived rx).ndev = s.ndev := rfl
@[simp] theorem State.storeReceived_txbuf (rx : List Byte) :
    (s.storeReceived rx).txbuf = s.txbuf := rfl
@[simp] theorem State.storeReceived_rxbuf (rx : List Byte) :
    (s.storeReceived rx).rxbuf = s.rxbuf.writeBytes 0 rx := rfl
@[simp] theorem State.storeReceived_frame (rx : List Byte) :
    (s.storeReceived rx).frame = s.frame := rfl
@[simp] theorem State.storeReceived_tbl (rx : List Byte) : (s.storeReceived rx).tbl = s.tbl := rfl
@[simp] theorem State.storeReceived_tblReady (rx : List Byte) :
    (s.storeReceived rx).tblReady = s.tblReady := rfl
@[simp] theorem State.storeReceived_rem (rx : List Byte) : (s.storeReceived rx).rem = s.rem := rfl
@[simp] theorem State.storeReceived_status (rx : List Byte) :
    (s.storeReceived rx).status = s.status := rfl
@[simp] theorem State.storeReceived_errmask (rx : List Byte) :
    (s.storeReceived rx).errmask = s.errmask := rfl
@[simp] theorem State.storeReceived_terr (rx : List Byte) :
    (s.storeReceived rx).terr = s.terr := rfl
@[simp] theorem State.storeReceived_pecOut (rx : List Byte) :
    (s.storeReceived rx).pecOut = s.pecOut := rfl
@[simp] theorem State.storeReceived_cs (rx : List Byte) : (s.storeReceived rx).cs = s.cs := rfl
@[simp] theorem State.storeReceived_seq (rx : List Byte) : (s.storeReceived rx).seq = s.seq := rfl
@[simp] theorem State.storeReceived_config (rx : List Byte) :
    (s.storeReceived rx).config = s.config := rfl
@[simp] theorem State.storeReceived_requests (rx : List Byte) :
    (s.storeReceived rx).requests = s.requests := rfl
@[simp] theorem State.storeReceived_answers (rx : List Byte) :
    (s.storeReceived rx).answers = s.answers := rfl
@[simp] theorem State.storeReceived_trace (rx : List Byte) :
    (s.storeReceived rx).trace = s.trace := rfl
@[simp] theorem State.storeReceived_draws (rx : List Byte) :
    (s.storeReceived rx).draws = s.draws := rfl

@[simp] theorem State.complete_op (mask : Mask) : (s.complete mask).op = s.op := rfl
@[simp] theorem State.complete_cmd (mask : Mask) : (s.complete mask).cmd = s.cmd := rfl
@[simp] theorem State.complete_len (mask : Mask) : (s.complete mask).len = s.len := rfl
@[simp] theorem State.complete_ndev (mask : Mask) : (s.complete mask).ndev = s.ndev := rfl
@[simp] theorem State.complete_txbuf (mask : Mask) : (s.complete mask).txbuf = s.txbuf := rfl
@[simp] theorem State.complete_rxbuf (mask : Mask) : (s.complete mask).rxbuf = s.rxbuf := rfl
@[simp] theorem State.complete_frame (mask : Mask) : (s.complete mask).frame = freeFrame s := rfl
@[simp] theorem State.complete_tbl (mask : Mask) : (s.complete mask).tbl = s.tbl := rfl
@[simp] theorem State.complete_tblReady (mask : Mask) :
    (s.complete mask).tblReady = s.tblReady := rfl
@[simp] theorem State.complete_rem (mask : Mask) : (s.complete mask).rem = s.rem := rfl
@[simp] theorem State.complete_status (mask : Mask) :
    (s.complete mask).status = statusOfMask mask := rfl
@[simp] theorem State.complete_errmask (mask : Mask) : (s.complete mask).errmask = mask := rfl
@[simp] theorem State.complete_terr (mask : Mask) :
    (s.complete mask).terr = Config.freeReport s.draws := rfl
@[simp] theorem State.complete_pecOut (mask : Mask) : (s.complete mask).pecOut = s.pecOut := rfl
@[simp] theorem State.complete_cs (mask : Mask) : (s.complete mask).cs = s.cs := rfl
@[simp] theorem State.complete_seq (mask : Mask) : (s.complete mask).seq = s.seq := rfl
@[simp] theorem State.complete_config (mask : Mask) : (s.complete mask).config = s.config := rfl
@[simp] theorem State.complete_requests (mask : Mask) :
    (s.complete mask).requests = s.requests := rfl
@[simp] theorem State.complete_answers (mask : Mask) : (s.complete mask).answers = s.answers := rfl
@[simp] theorem State.complete_trace (mask : Mask) : (s.complete mask).trace = s.trace := rfl
@[simp] theorem State.complete_draws (mask : Mask) : (s.complete mask).draws = s.draws + 1 := rfl

@[simp] theorem State.endOffBus_op (st : Status) : (s.endOffBus st).op = s.op := rfl
@[simp] theorem State.endOffBus_cmd (st : Status) : (s.endOffBus st).cmd = s.cmd := rfl
@[simp] theorem State.endOffBus_len (st : Status) : (s.endOffBus st).len = s.len := rfl
@[simp] theorem State.endOffBus_ndev (st : Status) : (s.endOffBus st).ndev = s.ndev := rfl
@[simp] theorem State.endOffBus_txbuf (st : Status) : (s.endOffBus st).txbuf = s.txbuf := rfl
@[simp] theorem State.endOffBus_rxbuf (st : Status) : (s.endOffBus st).rxbuf = s.rxbuf := rfl
@[simp] theorem State.endOffBus_frame (st : Status) : (s.endOffBus st).frame = s.frame := rfl
@[simp] theorem State.endOffBus_tbl (st : Status) : (s.endOffBus st).tbl = s.tbl := rfl
@[simp] theorem State.endOffBus_tblReady (st : Status) :
    (s.endOffBus st).tblReady = s.tblReady := rfl
@[simp] theorem State.endOffBus_rem (st : Status) : (s.endOffBus st).rem = s.rem := rfl
@[simp] theorem State.endOffBus_status (st : Status) : (s.endOffBus st).status = st := rfl
@[simp] theorem State.endOffBus_errmask (st : Status) : (s.endOffBus st).errmask = s.errmask := rfl
@[simp] theorem State.endOffBus_terr (st : Status) :
    (s.endOffBus st).terr = Config.staleReport s.draws s.terr := rfl
@[simp] theorem State.endOffBus_pecOut (st : Status) : (s.endOffBus st).pecOut = s.pecOut := rfl
@[simp] theorem State.endOffBus_cs (st : Status) : (s.endOffBus st).cs = s.cs := rfl
@[simp] theorem State.endOffBus_seq (st : Status) : (s.endOffBus st).seq = s.seq := rfl
@[simp] theorem State.endOffBus_config (st : Status) : (s.endOffBus st).config = s.config := rfl
@[simp] theorem State.endOffBus_requests (st : Status) :
    (s.endOffBus st).requests = s.requests := rfl
@[simp] theorem State.endOffBus_answers (st : Status) : (s.endOffBus st).answers = s.answers := rfl
@[simp] theorem State.endOffBus_trace (st : Status) : (s.endOffBus st).trace = s.trace := rfl
@[simp] theorem State.endOffBus_draws (st : Status) : (s.endOffBus st).draws = s.draws + 1 := rfl

/-- A rejection is the end of an operation that made no transport call (R114). -/
@[simp] theorem State.raise_rejected : s.raise .rejected = s.endOffBus .rejected := rfl

@[simp] theorem State.raiseTransportErr_op (e : TransportReport) :
    (s.raise (.transportErr e)).op = s.op := rfl
@[simp] theorem State.raiseTransportErr_cmd (e : TransportReport) :
    (s.raise (.transportErr e)).cmd = s.cmd := rfl
@[simp] theorem State.raiseTransportErr_len (e : TransportReport) :
    (s.raise (.transportErr e)).len = s.len := rfl
@[simp] theorem State.raiseTransportErr_ndev (e : TransportReport) :
    (s.raise (.transportErr e)).ndev = s.ndev := rfl
@[simp] theorem State.raiseTransportErr_txbuf (e : TransportReport) :
    (s.raise (.transportErr e)).txbuf = s.txbuf := rfl
@[simp] theorem State.raiseTransportErr_rxbuf (e : TransportReport) :
    (s.raise (.transportErr e)).rxbuf = s.rxbuf := rfl
@[simp] theorem State.raiseTransportErr_frame (e : TransportReport) :
    (s.raise (.transportErr e)).frame = freeFrame s := rfl
@[simp] theorem State.raiseTransportErr_tbl (e : TransportReport) :
    (s.raise (.transportErr e)).tbl = s.tbl := rfl
@[simp] theorem State.raiseTransportErr_tblReady (e : TransportReport) :
    (s.raise (.transportErr e)).tblReady = s.tblReady := rfl
@[simp] theorem State.raiseTransportErr_rem (e : TransportReport) :
    (s.raise (.transportErr e)).rem = s.rem := rfl
@[simp] theorem State.raiseTransportErr_status (e : TransportReport) :
    (s.raise (.transportErr e)).status = .transportErr := rfl
@[simp] theorem State.raiseTransportErr_errmask (e : TransportReport) :
    (s.raise (.transportErr e)).errmask = Config.freeMask s.draws := rfl
@[simp] theorem State.raiseTransportErr_terr (e : TransportReport) :
    (s.raise (.transportErr e)).terr = e := rfl
@[simp] theorem State.raiseTransportErr_pecOut (e : TransportReport) :
    (s.raise (.transportErr e)).pecOut = s.pecOut := rfl
@[simp] theorem State.raiseTransportErr_cs (e : TransportReport) :
    (s.raise (.transportErr e)).cs = .released := rfl
@[simp] theorem State.raiseTransportErr_seq (e : TransportReport) :
    (s.raise (.transportErr e)).seq = .idle := rfl
@[simp] theorem State.raiseTransportErr_config (e : TransportReport) :
    (s.raise (.transportErr e)).config = s.config := rfl
@[simp] theorem State.raiseTransportErr_requests (e : TransportReport) :
    (s.raise (.transportErr e)).requests = s.requests := rfl
@[simp] theorem State.raiseTransportErr_answers (e : TransportReport) :
    (s.raise (.transportErr e)).answers = s.answers := rfl
@[simp] theorem State.raiseTransportErr_trace (e : TransportReport) :
    (s.raise (.transportErr e)).trace = s.trace := rfl
@[simp] theorem State.raiseTransportErr_draws (e : TransportReport) :
    (s.raise (.transportErr e)).draws = s.draws + 1 := rfl

@[simp] theorem State.answered_answers : s.answered.answers = s.answers.tail := by
  unfold State.answered
  split <;> simp_all

@[simp] theorem State.spoilReceived_zero : s.spoilReceived 0 = s := rfl

/-- After a read, a transport failure leaves `RXBUF` unspecified and nothing else. -/
theorem State.spoilReceived_pos {n : Nat} (h : n ≠ 0) :
    s.spoilReceived n = { s with rxbuf := freeRxbuf s } := if_neg h

@[simp] theorem State.spoilReceived_op (n : Nat) : (s.spoilReceived n).op = s.op := by
  unfold State.spoilReceived; split <;> rfl
@[simp] theorem State.spoilReceived_cmd (n : Nat) : (s.spoilReceived n).cmd = s.cmd := by
  unfold State.spoilReceived; split <;> rfl
@[simp] theorem State.spoilReceived_len (n : Nat) : (s.spoilReceived n).len = s.len := by
  unfold State.spoilReceived; split <;> rfl
@[simp] theorem State.spoilReceived_ndev (n : Nat) : (s.spoilReceived n).ndev = s.ndev := by
  unfold State.spoilReceived; split <;> rfl
@[simp] theorem State.spoilReceived_txbuf (n : Nat) : (s.spoilReceived n).txbuf = s.txbuf := by
  unfold State.spoilReceived; split <;> rfl
@[simp] theorem State.spoilReceived_frame (n : Nat) : (s.spoilReceived n).frame = s.frame := by
  unfold State.spoilReceived; split <;> rfl
@[simp] theorem State.spoilReceived_tbl (n : Nat) : (s.spoilReceived n).tbl = s.tbl := by
  unfold State.spoilReceived; split <;> rfl
@[simp] theorem State.spoilReceived_tblReady (n : Nat) : (s.spoilReceived n).tblReady = s.tblReady := by
  unfold State.spoilReceived; split <;> rfl
@[simp] theorem State.spoilReceived_rem (n : Nat) : (s.spoilReceived n).rem = s.rem := by
  unfold State.spoilReceived; split <;> rfl
@[simp] theorem State.spoilReceived_status (n : Nat) : (s.spoilReceived n).status = s.status := by
  unfold State.spoilReceived; split <;> rfl
@[simp] theorem State.spoilReceived_errmask (n : Nat) : (s.spoilReceived n).errmask = s.errmask := by
  unfold State.spoilReceived; split <;> rfl
@[simp] theorem State.spoilReceived_terr (n : Nat) : (s.spoilReceived n).terr = s.terr := by
  unfold State.spoilReceived; split <;> rfl
@[simp] theorem State.spoilReceived_pecOut (n : Nat) : (s.spoilReceived n).pecOut = s.pecOut := by
  unfold State.spoilReceived; split <;> rfl
@[simp] theorem State.spoilReceived_cs (n : Nat) : (s.spoilReceived n).cs = s.cs := by
  unfold State.spoilReceived; split <;> rfl
@[simp] theorem State.spoilReceived_seq (n : Nat) : (s.spoilReceived n).seq = s.seq := by
  unfold State.spoilReceived; split <;> rfl
@[simp] theorem State.spoilReceived_config (n : Nat) : (s.spoilReceived n).config = s.config := by
  unfold State.spoilReceived; split <;> rfl
@[simp] theorem State.spoilReceived_requests (n : Nat) : (s.spoilReceived n).requests = s.requests := by
  unfold State.spoilReceived; split <;> rfl
@[simp] theorem State.spoilReceived_answers (n : Nat) : (s.spoilReceived n).answers = s.answers := by
  unfold State.spoilReceived; split <;> rfl
@[simp] theorem State.spoilReceived_trace (n : Nat) : (s.spoilReceived n).trace = s.trace := by
  unfold State.spoilReceived; split <;> rfl
@[simp] theorem State.spoilReceived_draws (n : Nat) : (s.spoilReceived n).draws = s.draws := by
  unfold State.spoilReceived; split <;> rfl

end Sys2Proof.Machine
end

