-- ==== Sys2Proof/Laws/Ops.lean ====
section
/-!
SUPPORT. One lemma for each shared operation that says once everything it can do: the transport calls,
the transaction, the frame of a framer operation, the assembly of `FRAME`, and the verification.
-/

namespace Sys2Proof.Machine

/-- `t` differs from `s` in the bus fields alone: `CS`, `SEQ`, the answers, the trace, the draws. -/
def busOnly (s t : State) : Prop :=
  t = { s with cs := t.cs, seq := t.seq, answers := t.answers, trace := t.trace, draws := t.draws }

theorem busOnly_refl (s : State) : busOnly s s := rfl

theorem busOnly_trans {s t u : State} (h : busOnly s t) (h' : busOnly t u) : busOnly s u := by
  unfold busOnly at *
  rw [h'] at *
  rw [h]

theorem busOnly_select (s : State) : busOnly s s.select := rfl

theorem busOnly_deselect (s : State) : busOnly s s.deselect := rfl

theorem busOnly_answered (s : State) : busOnly s s.answered := by
  unfold State.answered
  split <;> rfl

theorem busOnly_sendBytes (s : State) (out : List Byte) : busOnly s (s.sendBytes out) :=
  busOnly_trans (busOnly_answered s) rfl

theorem busOnly_receiveBytes (s : State) (n : Nat) : busOnly s (s.receiveBytes n) :=
  busOnly_trans (busOnly_answered s) rfl

/-- What a `transfer_in` returns has exactly the count asked for (R39). -/
@[simp] theorem fitAnswer_length (rx : List Byte) (n draw : Nat) :
    (fitAnswer rx n draw).length = n := by
  simp only [fitAnswer, List.length_append, List.length_take, List.length_map, List.length_range]
  omega

/-- An answer that has the count asked for is received as it is. -/
theorem fitAnswer_exact (rx : List Byte) (draw : Nat) : fitAnswer rx rx.length draw = rx := by
  simp [fitAnswer]

theorem receiveAnswer_ok_length {s : State} {n : Nat} {rx : List Byte}
    (h : s.receiveAnswer n = .ok rx) : rx.length = n := by
  unfold State.receiveAnswer at h
  split at h <;> cases h
  exact fitAnswer_length _ _ _

theorem select_answer (s : State) : s.select.answer = s.answer := rfl

theorem select_answered_answers (s : State) : s.select.answered.answers = s.answered.answers := by
  simp

theorem select_answered_draws (s : State) : s.select.answered.draws = s.answered.draws := by
  unfold State.answered State.select
  cases s.answers <;> rfl

/-- A `transfer_in` is answered from what the `transfer_out` before it left of the answers. -/
theorem sendBytes_receiveAnswer (s : State) (out : List Byte) (n : Nat) :
    (s.select.sendBytes out).receiveAnswer n = s.answered.receiveAnswer n := by
  unfold State.receiveAnswer State.answer
  simp only [State.sendBytes_answers, State.sendBytes_draws, select_answered_answers,
    select_answered_draws]

/-- `TXN` when the transport refuses the bytes sent (R92, third shape). -/
theorem txn_send_fails {s : State} {e : TransportReport} (out : List Byte) (n : Nat)
    (h : s.answer = .fail e) : txn out n s = .failed e (s.select.sendBytes out).deselect := by
  simp [txn, State.sendFailure, select_answer, h]

/-- `TXN` that sends alone, accepted (R92, first shape). -/
theorem txn_sends {s : State} {ignored : List Byte} (out : List Byte) (h : s.answer = .ok ignored) :
    txn out 0 s = .done [] (s.select.sendBytes out).deselect := by
  simp [txn, State.sendFailure, select_answer, h, txnReceive]

/-- `TXN` when the transport fails the receive (R92, fourth shape). -/
theorem txn_receive_fails {s : State} {ignored : List Byte} {e : TransportReport} (out : List Byte)
    {n : Nat} (hn : n ≠ 0) (h : s.answer = .ok ignored)
    (h' : s.answered.receiveAnswer n = .fail e) :
    txn out n s = .failed e ((s.select.sendBytes out).receiveBytes n).deselect := by
  simp [txn, State.sendFailure, select_answer, h, txnReceive, hn, sendBytes_receiveAnswer, h']

/-- `TXN` that sends and receives (R92, second shape). -/
theorem txn_receives {s : State} {ignored rx : List Byte} (out : List Byte) {n : Nat} (hn : n ≠ 0)
    (h : s.answer = .ok ignored) (h' : s.answered.receiveAnswer n = .ok rx) :
    txn out n s = .done rx ((s.select.sendBytes out).receiveBytes n).deselect := by
  simp [txn, State.sendFailure, select_answer, h, txnReceive, hn, sendBytes_receiveAnswer, h']

/-- Everything `TXN` can do (R92): one of the four shapes. -/
theorem txn_cases (out : List Byte) (n : Nat) (s : State) :
    (∃ e t, txn out n s = .failed e t ∧ busOnly s t ∧ t.cs = .released ∧ t.seq = .idle ∧
      t.trace = s.trace ++ [.select, .transferOut out (some e), .deselect]) ∨
    (n = 0 ∧ ∃ t, txn out n s = .done [] t ∧ busOnly s t ∧ t.cs = .released ∧ t.seq = .idle ∧
      t.trace = s.trace ++ [.select, .transferOut out none, .deselect]) ∨
    (n ≠ 0 ∧ ∃ e t, txn out n s = .failed e t ∧ busOnly s t ∧ t.cs = .released ∧ t.seq = .idle ∧
      t.trace = s.trace ++
        [.select, .transferOut out none, .transferIn n (.fail e), .deselect]) ∨
    (n ≠ 0 ∧ ∃ rx t, txn out n s = .done rx t ∧ rx.length = n ∧ busOnly s t ∧
      t.cs = .released ∧ t.seq = .idle ∧
      t.trace = s.trace ++
        [.select, .transferOut out none, .transferIn n (.ok rx), .deselect]) := by
  have sent : busOnly s (s.select.sendBytes out) :=
    busOnly_trans (busOnly_select s) (busOnly_sendBytes _ out)
  cases hf : s.select.sendFailure with
  | some e =>
    refine .inl ⟨e, (s.select.sendBytes out).deselect, by simp [txn, hf],
      busOnly_trans sent (busOnly_deselect _), rfl, rfl, by simp [hf]⟩
  | none =>
    by_cases hn : n = 0
    · refine .inr (.inl ⟨hn, (s.select.sendBytes out).deselect, by simp [txn, hf, txnReceive, hn],
        busOnly_trans sent (busOnly_deselect _), rfl, rfl, by simp [hf]⟩)
    · have received : busOnly s ((s.select.sendBytes out).receiveBytes n).deselect :=
        busOnly_trans sent (busOnly_trans (busOnly_receiveBytes _ n) (busOnly_deselect _))
      cases ha : (s.select.sendBytes out).receiveAnswer n with
      | fail e =>
        exact .inr (.inr (.inl ⟨hn, e, _, by simp [txn, hf, txnReceive, hn, ha], received,
          rfl, rfl, by simp [hf, ha]⟩))
      | ok rx =>
        exact .inr (.inr (.inr ⟨hn, rx, _, by simp [txn, hf, txnReceive, hn, ha],
          receiveAnswer_ok_length ha, received, rfl, rfl, by simp [hf, ha]⟩))

/-- A transaction that ends in a failure leaves the bus released and changes the bus fields alone. -/
theorem txn_failed {out : List Byte} {n : Nat} {s t : State} {e : TransportReport}
    (h : txn out n s = .failed e t) : busOnly s t ∧ t.cs = .released ∧ t.seq = .idle ∧
      (t.trace = s.trace ++ [.select, .transferOut out (some e), .deselect] ∨
        n ≠ 0 ∧ t.trace = s.trace ++
          [.select, .transferOut out none, .transferIn n (.fail e), .deselect]) := by
  obtain ⟨_, _, h', hb, hc, hs, ht⟩ | ⟨_, _, h', _⟩ | ⟨hn, _, _, h', hb, hc, hs, ht⟩ |
    ⟨_, _, _, h', _⟩ := txn_cases out n s <;> rw [h] at h' <;> cases h'
  · exact ⟨hb, hc, hs, .inl ht⟩
  · exact ⟨hb, hc, hs, .inr ⟨hn, ht⟩⟩

/-- A transaction that ends well leaves the bus released, changes the bus fields alone, and returns as
many bytes as were asked for. -/
theorem txn_done {out : List Byte} {n : Nat} {s t : State} {rx : List Byte}
    (h : txn out n s = .done rx t) : busOnly s t ∧ t.cs = .released ∧ t.seq = .idle ∧
      rx.length = n ∧
      (n = 0 ∧ t.trace = s.trace ++ [.select, .transferOut out none, .deselect] ∨
        n ≠ 0 ∧ t.trace = s.trace ++
          [.select, .transferOut out none, .transferIn n (.ok rx), .deselect]) := by
  obtain ⟨_, _, h', _⟩ | ⟨hn, _, h', hb, hc, hs, ht⟩ | ⟨_, _, _, h', _⟩ |
    ⟨hn, _, _, h', hl, hb, hc, hs, ht⟩ := txn_cases out n s <;> rw [h] at h' <;> cases h'
  · exact ⟨hb, hc, hs, hn.symm, .inl ⟨hn, ht⟩⟩
  · exact ⟨hb, hc, hs, hl, .inr ⟨hn, ht⟩⟩

/-- Everything a framer operation can do (R118): rejected, table not built, transport failure, done. -/
theorem framer_cases (legal : Bool) (assemble : State → State) (sent n : Nat)
    (verify : List Byte → State → State) (s : State) :
    (legal = false ∧ framer legal assemble sent n verify s = .next (s.raise .rejected)) ∨
    (legal = true ∧ s.tblReady = false ∧
      framer legal assemble sent n verify s = .fault .tableNotBuilt) ∨
    (legal = true ∧ s.tblReady = true ∧ ∃ e t,
      txn ((assemble s).frame.readBytes 0 sent) n (assemble s) = .failed e t ∧
      framer legal assemble sent n verify s =
        .next ((t.spoilReceived n).raise (.transportErr e))) ∨
    (legal = true ∧ s.tblReady = true ∧ ∃ rx t,
      txn ((assemble s).frame.readBytes 0 sent) n (assemble s) = .done rx t ∧
      framer legal assemble sent n verify s = .next (verify rx t)) := by
  cases hl : legal with
  | false => exact .inl ⟨rfl, by simp [framer]⟩
  | true =>
    cases hr : s.tblReady with
    | false => exact .inr (.inl ⟨rfl, rfl, by simp [framer, hr]⟩)
    | true =>
      cases ht : txn ((assemble s).frame.readBytes 0 sent) n (assemble s) with
      | failed e t => exact .inr (.inr (.inl ⟨rfl, rfl, e, t, rfl, by simp [framer, hr, ht]⟩))
      | done rx t => exact .inr (.inr (.inr ⟨rfl, rfl, rx, t, rfl, by simp [framer, hr, ht]⟩))

/-- `FRAME[0 .. 3]` after the header was put there is the header (R35). -/
theorem readBytes_putHeader (s : State) (cmd : Cmd) (h : s.frame.wf = true) :
    (s.putHeader cmd).frame.readBytes 0 hdrLen = hdr s.tbl cmd :=
  Memory.readBytes_writeBytes_self (hdr s.tbl cmd) 0 h

theorem putHeader_frame_wf (s : State) (cmd : Cmd) (h : s.frame.wf = true) :
    (s.putHeader cmd).frame.wf = true :=
  Memory.writeBytes_wf _ 0 h

theorem putSegment_frame_wf (s : State) (dst : Nat) (d : List Byte) (h : s.frame.wf = true) :
    (s.putSegment dst d).frame.wf = true :=
  Memory.writeBytes_wf _ dst h

/-- A segment put at the end of what is already in `FRAME` lengthens it by that segment. -/
theorem readBytes_putSegment (s : State) (dst : Nat) (d : List Byte) (h : s.frame.wf = true) :
    (s.putSegment dst d).frame.readBytes 0 (dst + segLen d.length) =
      s.frame.readBytes 0 dst ++ seg s.tbl d := by
  rw [Memory.readBytes_append, Nat.zero_add]
  congr 1
  · exact Memory.readBytes_writeBytes_before _ _ (by omega)
  · have := Memory.readBytes_writeBytes_self (seg s.tbl d) dst h
    rwa [seg_length] at this

@[simp] theorem payloadAt_length (m : Memory) (dlen j : Nat) :
    (payloadAt m dlen j).length = dlen := by
  simp [payloadAt]

/-- What `WRCMD` sends (R56): the header and one data segment. -/
theorem readBytes_assembleSingle (s : State) (cmd : Cmd) (dlen : Nat) (h : s.frame.wf = true) :
    (assembleSingle cmd dlen s).frame.readBytes 0 (hdrLen + segLen dlen) =
      hdr s.tbl cmd ++ seg s.tbl (payloadAt s.txbuf dlen 0) := by
  have := readBytes_putSegment (s.putHeader cmd) hdrLen (payloadAt s.txbuf dlen 0)
    (putHeader_frame_wf s cmd h)
  rw [payloadAt_length, readBytes_putHeader s cmd h] at this
  simpa [assembleSingle] using this

/-- `t` differs from `s` in the assembly's fields alone: `REM` and `FRAME`. -/
def assemblyOnly (s t : State) : Prop := t = { s with rem := t.rem, frame := t.frame }

theorem assemblyOnly_trans {s t u : State} (h : assemblyOnly s t) (h' : assemblyOnly t u) :
    assemblyOnly s u := by
  unfold assemblyOnly at *
  rw [h'] at *
  rw [h]

theorem assemblyOnly_putHeader (s : State) (cmd : Cmd) : assemblyOnly s (s.putHeader cmd) := rfl

theorem assemblyOnly_putSegment (s : State) (dst : Nat) (d : List Byte) :
    assemblyOnly s (s.putSegment dst d) := rfl

theorem assemblyOnly_assembleSingle (s : State) (cmd : Cmd) (dlen : Nat) :
    assemblyOnly s (assembleSingle cmd dlen s) :=
  assemblyOnly_trans (assemblyOnly_putHeader s cmd) (assemblyOnly_putSegment _ _ _)

/-- The first `k` passes of the loop of R97. -/
theorem chainSegments (s : State) (dlen ndev : Nat) (out : List Byte)
    (hw : s.frame.wf = true) (hout : s.frame.readBytes 0 hdrLen = out) :
    ∀ k, ∃ t, (List.range k).foldl (putChainSegment dlen ndev) s = t ∧ assemblyOnly s t ∧
      t.frame.wf = true ∧
      t.frame.readBytes 0 (segmentOffset dlen k) =
        out ++ (List.range k).flatMap fun iq => seg s.tbl (payloadAt s.txbuf dlen (ndev - 1 - iq))
  | 0 => ⟨s, rfl, rfl, hw, by simpa [segmentOffset] using hout⟩
  | k + 1 => by
    obtain ⟨t, ht, ha, hwt, hr⟩ := chainSegments s dlen ndev out hw hout k
    refine ⟨putChainSegment dlen ndev t k, by simp [List.range_succ, ht],
      assemblyOnly_trans ha (assemblyOnly_putSegment _ _ _), putSegment_frame_wf _ _ _ hwt, ?_⟩
    have htbl : t.tbl = s.tbl := by rw [ha]
    have htx : t.txbuf = s.txbuf := by rw [ha]
    have := readBytes_putSegment t (segmentOffset dlen k) (payloadAt t.txbuf dlen (ndev - 1 - k)) hwt
    rw [payloadAt_length, hr, htbl, htx] at this
    rw [show segmentOffset dlen (k + 1) = segmentOffset dlen k + segLen dlen by
      simp [segmentOffset, Nat.succ_mul, Nat.add_assoc]]
    simpa [putChainSegment, List.range_succ, htx] using this

/-- Everything the assembly of `WRCHAIN` does (R97): what `FRAME` holds, in the order of the wire. -/
theorem assembleChain_spec (s : State) (cmd : Cmd) (dlen ndev : Nat) (h : s.frame.wf = true) :
    assemblyOnly s (assembleChain cmd dlen ndev s) ∧
      (assembleChain cmd dlen ndev s).frame.wf = true ∧
      (assembleChain cmd dlen ndev s).frame.readBytes 0 (segmentOffset dlen ndev) =
        hdr s.tbl cmd ++
          (List.range ndev).flatMap fun iq => seg s.tbl (payloadAt s.txbuf dlen (ndev - 1 - iq)) := by
  obtain ⟨t, ht, ha, hw, hr⟩ := chainSegments (s.putHeader cmd) dlen ndev (hdr s.tbl cmd)
    (putHeader_frame_wf s cmd h) (readBytes_putHeader s cmd h) ndev
  unfold assembleChain
  rw [ht]
  exact ⟨assemblyOnly_trans (assemblyOnly_putHeader s cmd) ha, hw, by simpa using hr⟩

/-- The assembly of `WRCHAIN` changes `REM` and `FRAME` alone, whatever `FRAME` held. -/
theorem assemblyOnly_assembleChain (s : State) (cmd : Cmd) (dlen ndev : Nat) :
    assemblyOnly s (assembleChain cmd dlen ndev s) := by
  unfold assembleChain
  have loop : ∀ (l : List Nat) (t : State), assemblyOnly t (l.foldl (putChainSegment dlen ndev) t) := by
    intro l
    induction l with
    | nil => exact fun _ => rfl
    | cons k l ih => exact fun t => assemblyOnly_trans (assemblyOnly_putSegment t _ _) (ih _)
  exact assemblyOnly_trans (assemblyOnly_putHeader s cmd) (loop _ _)

end Sys2Proof.Machine
end

