-- ==== Sys2Proof/Laws/Exec.lean ====
section
/-!
SUPPORT. One lemma for `exec` on the framer operations, and one that says everything it can end in; the
whole machine's statements are proved from these two and not by unfolding each operation.
-/

namespace Sys2Proof.Machine

/-- How many bytes an operation sends (R56). -/
def sentCount : Instr → Nat
  | .wrcmd _ len => hdrLen + segLen len.toNat
  | .wrchain _ len ndev => segmentOffset len.toNat ndev.toNat
  | _ => hdrLen

/-- What an operation puts into `FRAME` before its transaction (R93 to R97). -/
def assembled : Instr → State → State
  | .run cmd, s => s.putHeader cmd
  | .rdcmd cmd _, s => s.putHeader cmd
  | .rdchain cmd _ _, s => s.putHeader cmd
  | .wrcmd cmd len, s => assembleSingle cmd len.toNat s
  | .wrchain cmd len ndev, s => assembleChain cmd len.toNat ndev.toNat s
  | _, s => s

/-- The mask an operation ends with and the remainder it leaves (R93 to R97). -/
def verdict (i : Instr) (rx : List Byte) (s : State) : Mask × Rem :=
  match i with
  | .rdcmd _ len => checkSingle s.tbl rx len.toNat
  | .rdchain _ len ndev => checkChain s.tbl rx len.toNat ndev.toNat s.rem
  | _ => (0x00, s.rem)

/-- `RXBUF` once the transfers have succeeded (R22). -/
def stored (i : Instr) (rx : List Byte) (s : State) : Memory :=
  match i with
  | .rdcmd _ _ => s.rxbuf.writeBytes 0 rx
  | .rdchain _ _ _ => s.rxbuf.writeBytes 0 rx
  | _ => s.rxbuf

/-- The results an operation writes once its transfers have succeeded (R93 to R97). -/
def concluded (i : Instr) (rx : List Byte) (s : State) : State :=
  { s with rxbuf := stored i rx s, rem := (verdict i rx s).2 }.complete (verdict i rx s).1

/-- Every framer operation is the shared operation with its own parts. -/
theorem exec_framer {i : Instr} (h : isFramer i = true) (s : State) :
    exec i s = framer (i.wellFormed s.config) (assembled i) (sentCount i) (receivedCount i)
      (concluded i) s := by
  cases i with
  | run cmd => rfl
  | wrcmd cmd len => rfl
  | wrchain cmd len ndev => rfl
  | rdcmd cmd len => rfl
  | rdchain cmd len ndev => rfl
  | _ => cases h

theorem assemblyOnly_assembled (i : Instr) (s : State) : assemblyOnly s (assembled i s) := by
  cases i with
  | wrcmd cmd len => exact assemblyOnly_assembleSingle s cmd len.toNat
  | wrchain cmd len ndev => exact assemblyOnly_assembleChain s cmd len.toNat ndev.toNat
  | _ => rfl

/-- The farthest-first loop of R97 runs over the positions in reverse. -/
theorem farthest_first {α : Type} (f : Nat → List α) (n : Nat) :
    ((List.range n).flatMap fun iq => f (n - 1 - iq)) = (List.range n).reverse.flatMap f := by
  have h : (List.range n).reverse = (List.range n).map fun iq => n - 1 - iq :=
    List.ext_getElem (by simp) fun k _ _ => by simp
  rw [h, List.flatMap_map]

/-- What a framer operation sends is what R56 says, in terms of the built table. -/
theorem readBytes_assembled {i : Instr} (h : isFramer i = true) {s : State}
    (hw : s.frame.wf = true) (ht : s.tbl = builtTable) :
    (assembled i s).frame.readBytes 0 (sentCount i) = sentBytes s.txbuf i := by
  cases i with
  | run cmd => exact (readBytes_putHeader s cmd hw).trans (by rw [ht]; rfl)
  | rdcmd cmd len => exact (readBytes_putHeader s cmd hw).trans (by rw [ht]; rfl)
  | rdchain cmd len ndev => exact (readBytes_putHeader s cmd hw).trans (by rw [ht]; rfl)
  | wrcmd cmd len =>
    refine (readBytes_assembleSingle s cmd len.toNat hw).trans ?_
    simp [ht, sentBytes, payloadAt, payloadOffset]
  | wrchain cmd len ndev =>
    refine (assembleChain_spec s cmd len.toNat ndev.toNat hw).2.2.trans ?_
    simp only [ht, sentBytes, payloadAt, payloadOffset]
    rw [farthest_first fun j => seg builtTable (s.txbuf.readBytes (j * len.toNat) len.toNat)]
  | _ => cases h

/-- A framer operation sends at least the header (R38). -/
theorem hdrLen_le_sentCount (i : Instr) : hdrLen ≤ sentCount i := by
  cases i <;> simp [sentCount, segmentOffset]

/-- A legal read asks for at least two bytes (R39). -/
theorem two_le_receivedCount {i : Instr} {c : Config} (hw : i.wellFormed c = true)
    (h : receivedCount i ≠ 0) : 2 ≤ receivedCount i := by
  cases i with
  | rdcmd cmd len => simp [receivedCount]
  | rdchain cmd len ndev =>
    simp only [Instr.wellFormed, chainLegal, ndevLegal, Bool.and_eq_true, decide_eq_true_eq] at hw
    exact Nat.le_trans (by omega) (Nat.mul_le_mul (Nat.le_add_left 2 len.toNat) hw.2.1)
  | _ => cases h rfl

/-- `exec` of a legal framer operation with the table built, once it is known how its transaction
ends. -/
theorem exec_framer_ready {i : Instr} (h : isFramer i = true) {s : State}
    (hw : i.wellFormed s.config = true) (hr : s.tblReady = true) :
    exec i s =
      match txn ((assembled i s).frame.readBytes 0 (sentCount i)) (receivedCount i)
        (assembled i s) with
      | .failed e u => .next ((u.spoilReceived (receivedCount i)).raise (.transportErr e))
      | .done rx u => .next (concluded i rx u) := by
  rw [exec_framer h s]
  simp only [framer, hw, hr, Bool.true_eq_false, if_false]
  all_goals
    cases txn ((assembled i s).frame.readBytes 0 (sentCount i)) (receivedCount i) (assembled i s) <;>
      rfl

@[simp] theorem assembled_answers (i : Instr) (s : State) : (assembled i s).answers = s.answers := by
  rw [assemblyOnly_assembled i s]

@[simp] theorem assembled_trace (i : Instr) (s : State) : (assembled i s).trace = s.trace := by
  rw [assemblyOnly_assembled i s]

/-- The assembly leaves the transport's answers alone. -/
theorem assembled_answer (i : Instr) (s : State) : (assembled i s).answer = s.answer := by
  rw [assemblyOnly_assembled i s]
  rfl

theorem assembled_answered_answers (i : Instr) (s : State) :
    (assembled i s).answered.answers = s.answered.answers := by
  rw [assemblyOnly_assembled i s]
  simp

theorem assembled_answered_receiveAnswer (i : Instr) (s : State) (n : Nat) :
    (assembled i s).answered.receiveAnswer n = s.answered.receiveAnswer n := by
  rw [assemblyOnly_assembled i s]
  unfold State.receiveAnswer State.answer State.answered
  cases s.answers <;> rfl

/-- What the transport calls of one framer operation leave: `u` is the state before the results are
written. Everything but `REM`, `FRAME` and the bus fields is as it was in `s`. -/
def transacted (s u : State) : Prop :=
  u.cs = .released ∧ u.seq = .idle ∧
    u = { s with rem := u.rem, frame := u.frame, cs := u.cs, seq := u.seq, answers := u.answers,
                 trace := u.trace, draws := u.draws }

theorem transacted_of {i : Instr} {s u : State} (h : busOnly (assembled i s) u)
    (hc : u.cs = .released) (hs : u.seq = .idle) : transacted s u := by
  refine ⟨hc, hs, ?_⟩
  have ha := assemblyOnly_assembled i s
  unfold busOnly at h
  unfold assemblyOnly at ha
  rw [ha] at h
  rw [h]

/-- Everything a framer operation can end in (R111, R118): rejected, table not built, a failed
`transfer_out`, a failed `transfer_in`, or completed. -/
theorem exec_framer_cases {i : Instr} (h : isFramer i = true) (s : State) :
    (i.wellFormed s.config = false ∧ exec i s = .next (s.endOffBus .rejected)) ∨
    (i.wellFormed s.config = true ∧ s.tblReady = false ∧ exec i s = .fault .tableNotBuilt) ∨
    (i.wellFormed s.config = true ∧ s.tblReady = true ∧
      ∃ out u, out.length = sentCount i ∧
        out = (assembled i s).frame.readBytes 0 (sentCount i) ∧ transacted s u ∧
        ((∃ e, u.trace = s.trace ++ [.select, .transferOut out (some e), .deselect] ∧
            exec i s = .next ((u.spoilReceived (receivedCount i)).raise (.transportErr e))) ∨
          (receivedCount i ≠ 0 ∧ ∃ e, u.trace = s.trace ++
              [.select, .transferOut out none, .transferIn (receivedCount i) (.fail e),
               .deselect] ∧
            exec i s = .next ((u.spoilReceived (receivedCount i)).raise (.transportErr e))) ∨
          (receivedCount i = 0 ∧
            u.trace = s.trace ++ [.select, .transferOut out none, .deselect] ∧
            exec i s = .next (concluded i [] u)) ∨
          (receivedCount i ≠ 0 ∧ ∃ rx, rx.length = receivedCount i ∧ u.trace = s.trace ++
              [.select, .transferOut out none, .transferIn (receivedCount i) (.ok rx),
               .deselect] ∧
            exec i s = .next (concluded i rx u)))) := by
  have htr : (assembled i s).trace = s.trace := assembled_trace i s
  rw [exec_framer h s]
  obtain ⟨hl, he⟩ | ⟨hl, hr, he⟩ | ⟨hl, hr, e, u, ht, he⟩ | ⟨hl, hr, rx, u, ht, he⟩ :=
    framer_cases (i.wellFormed s.config) (assembled i) (sentCount i) (receivedCount i)
      (concluded i) s
  · exact .inl ⟨hl, he⟩
  · exact .inr (.inl ⟨hl, hr, he⟩)
  · obtain ⟨hb, hc, hs, hcalls⟩ := txn_failed ht
    refine .inr (.inr ⟨hl, hr, _, u, Memory.readBytes_length _ _ _, rfl,
      transacted_of hb hc hs, ?_⟩)
    rw [htr] at hcalls
    obtain hcalls | ⟨hn, hcalls⟩ := hcalls
    · exact .inl ⟨e, hcalls, he⟩
    · exact .inr (.inl ⟨hn, e, hcalls, he⟩)
  · obtain ⟨hb, hc, hs, hlen, hcalls⟩ := txn_done ht
    refine .inr (.inr ⟨hl, hr, _, u, Memory.readBytes_length _ _ _, rfl,
      transacted_of hb hc hs, ?_⟩)
    rw [htr] at hcalls
    obtain ⟨hn, hcalls⟩ | ⟨hn, hcalls⟩ := hcalls
    · have : rx = [] := List.length_eq_zero_iff.mp (by omega)
      subst this
      exact .inr (.inr (.inl ⟨hn, hcalls, he⟩))
    · exact .inr (.inr (.inr ⟨hn, rx, hlen, hcalls, he⟩))

/-- Everything an instruction that is no framer operation can go on to (R59, R72, R75). -/
theorem exec_nonframer_cases {i : Instr} (h : isFramer i = false) {s t : State}
    (he : exec i s = .next t) :
    (i = .init ∧ t = { s with tbl := builtTable, tblReady := true }.endOffBus .ok) ∨
    (∃ len, i = .pec15 len ∧ t = s.endOffBus .rejected) ∨
    (∃ len, i = .pec15 len ∧ s.tblReady = true ∧ t = { s with
      rem := crcRem s.tbl (s.txbuf.readBytes 0 len.toNat)
      pecOut := pec15 s.tbl (s.txbuf.readBytes 0 len.toNat) }.endOffBus .ok) ∨
    (i = .reserved7 ∧ t = s.endOffBus .rejected) := by
  cases i with
  | init => cases he; exact .inl ⟨rfl, rfl⟩
  | reserved7 => cases he; exact .inr (.inr (.inr ⟨rfl, rfl⟩))
  | pec15 len =>
    simp only [exec, execPec15] at he
    split at he
    · cases he; exact .inr (.inl ⟨len, rfl, rfl⟩)
    · split at he
      · cases he
      · cases he; exact .inr (.inr (.inl ⟨len, rfl, by simp_all, rfl⟩))
  | wireH _ _ => cases he
  | wireD _ _ => cases he
  | _ => cases h

/-- A status that comes from a mask is neither a rejection nor a transport failure (R96, R111). -/
theorem statusOfMask_verified (m : Mask) :
    statusOfMask m ≠ .rejected ∧ statusOfMask m ≠ .transportErr := by
  unfold statusOfMask
  split <;> decide

variable (i : Instr) (rx : List Byte) (s : State)

@[simp] theorem concluded_op : (concluded i rx s).op = s.op := rfl
@[simp] theorem concluded_cmd : (concluded i rx s).cmd = s.cmd := rfl
@[simp] theorem concluded_len : (concluded i rx s).len = s.len := rfl
@[simp] theorem concluded_ndev : (concluded i rx s).ndev = s.ndev := rfl
@[simp] theorem concluded_txbuf : (concluded i rx s).txbuf = s.txbuf := rfl
@[simp] theorem concluded_rxbuf : (concluded i rx s).rxbuf = stored i rx s := rfl
@[simp] theorem concluded_tbl : (concluded i rx s).tbl = s.tbl := rfl
@[simp] theorem concluded_tblReady : (concluded i rx s).tblReady = s.tblReady := rfl
@[simp] theorem concluded_status :
    (concluded i rx s).status = statusOfMask (verdict i rx s).1 := rfl
@[simp] theorem concluded_errmask : (concluded i rx s).errmask = (verdict i rx s).1 := rfl
@[simp] theorem concluded_terr : (concluded i rx s).terr = Config.freeReport s.draws := rfl
@[simp] theorem concluded_pecOut : (concluded i rx s).pecOut = s.pecOut := rfl
@[simp] theorem concluded_cs : (concluded i rx s).cs = s.cs := rfl
@[simp] theorem concluded_seq : (concluded i rx s).seq = s.seq := rfl
@[simp] theorem concluded_config : (concluded i rx s).config = s.config := rfl
@[simp] theorem concluded_requests : (concluded i rx s).requests = s.requests := rfl
@[simp] theorem concluded_answers : (concluded i rx s).answers = s.answers := rfl
@[simp] theorem concluded_trace : (concluded i rx s).trace = s.trace := rfl
@[simp] theorem concluded_frame : (concluded i rx s).frame =
    Memory.filled (frameSize s.config) (Config.freeFrameByte s.draws) := rfl

end Sys2Proof.Machine
end

