-- ==== Sys2Proof/Laws/PerInstr.lean ====
section
/-!
SUPPORT. The family `RowMatch`: what the encoder writes for an instruction matches its row of
spec/opcode_table.json (`match` and `mask`), one lemma a constructor.
-/

namespace Sys2Proof.Laws.RowMatch

/-- A REQ row's `match` is the value of `OP` (R58); rows that are no request have none. -/
def rowOp : Instr → Nat
  | .init => 0
  | .pec15 _ => 1
  | .run _ => 2
  | .rdcmd _ _ => 3
  | .wrcmd _ _ => 4
  | .rdchain _ _ _ => 5
  | .wrchain _ _ _ => 6
  | .reserved7 => 7
  | .wireH _ _ => 0
  | .wireD _ _ => 0

/-- The encoding matches the row: `OP` in the first byte (R58); bits 31:27 and bit 0 of a header zero
(R50); bit 0 of a data segment's last byte zero (R51). -/
def Statement (i : Instr) : Prop :=
  match i.format with
  | .req => (encode i).head?.map BitVec.toNat = some (rowOp i)
  | .h => ∃ b0 b1 b2 b3 : Byte, encode i = [b0, b1, b2, b3] ∧ b0.toNat < 8 ∧ b3.getLsbD 0 = false
  | .d => ∃ (rest : List Byte) (b : Byte), encode i = rest ++ [b] ∧ b.getLsbD 0 = false

theorem init : Statement .init := rfl

theorem pec15 (len : Len) : Statement (.pec15 len) := rfl

theorem run (cmd : Cmd) : Statement (.run cmd) := rfl

theorem rdcmd (cmd : Cmd) (len : Len) : Statement (.rdcmd cmd len) := rfl

theorem wrcmd (cmd : Cmd) (len : Len) : Statement (.wrcmd cmd len) := rfl

theorem rdchain (cmd : Cmd) (len : Len) (ndev : NDev) : Statement (.rdchain cmd len ndev) := rfl

theorem wrchain (cmd : Cmd) (len : Len) (ndev : NDev) : Statement (.wrchain cmd len ndev) := rfl

theorem reserved7 : Statement .reserved7 := rfl

/-- The low wire byte of a computed PEC has bit 0 zero (R76). -/
theorem low_byte_even (r : Rem) : ((Machine.pecOf r).extractLsb' 0 8).getLsbD 0 = false := by
  simp [Machine.pecOf]

theorem wireH (cmd : Cmd) (pec : Rem) : Statement (.wireH cmd pec) := by
  refine ⟨_, _, _, _, rfl, ?_, low_byte_even pec⟩
  have := (cmd.extractLsb' 8 3).isLt
  rw [BitVec.toNat_setWidth]
  omega

theorem wireD (payload : List Byte) (pec : Rem) : Statement (.wireD payload pec) :=
  ⟨payload ++ [(Machine.pecOf pec).extractLsb' 8 8], _, by simp [encode, Machine.pecBytes],
    low_byte_even pec⟩

end Sys2Proof.Laws.RowMatch
end

