-- ==== Sys2Proof/Tests/Slice0.lean ====
section
/-!
SUPPORT. The model's own tests: expected values are the spec's (95_test_vectors.md, or the examples of
the rule named); the witnesses show states that meet each statement's hypotheses.
-/

namespace Sys2Proof.Tests

open Sys2Proof Sys2Proof.Machine

/-! ### Helpers -/

/-- Reset, then `INIT`: the table built. -/
def built : State := { State.reset with tbl := builtTable, tblReady := true }

/-- The table built and the transport's next answers given. -/
def answering (answers : List Answer) : State := { built with answers := answers }

/-- The table built and `TXBUF` filled from index 0. -/
def holding (bytes : List Byte) : State :=
  { answering [.ok []] with txbuf := Memory.writeBytes [] 0 bytes }

def payloadA : List Byte := [0xA0, 0xA1, 0xA2, 0xA3, 0xA4, 0xA5]
def payloadB : List Byte := [0xB0, 0xB1, 0xB2, 0xB3, 0xB4, 0xB5]
def payloadC : List Byte := [0xC0, 0xC1, 0xC2, 0xC3, 0xC4, 0xC5]
def payloadE : List Byte := [0xE5, 0x52, 0x27, 0xA0, 0x00, 0x50]

/-- What a run exposes of its end (R8): the status, the mask and the trace. -/
def seen : Host.Outcome State Fault Refusal → Option (Status × Mask × List TransportCall)
  | .next s => some (s.status, s.errmask, s.trace)
  | .fault _ => none
  | .refused _ => none

def seenStatus : Host.Outcome State Fault Refusal → Option Status
  | .next s => some s.status
  | .fault _ => none
  | .refused _ => none

def seenPec : Host.Outcome State Fault Refusal → Option Pec
  | .next s => some s.pecOut
  | .fault _ => none
  | .refused _ => none

def faultOf : Host.Outcome State Fault Refusal → Option Fault
  | .next _ => none
  | .fault f => some f
  | .refused _ => none

def refusalOf : Host.Outcome State Fault Refusal → Option Refusal
  | .next _ => none
  | .fault _ => none
  | .refused r => some r

/-! ### WellFormed: a well-formed term and, for each check, an ill-formed one -/

theorem test_wellFormed_smoke :
    (Instr.rdchain 4 8 8).wellFormed Config.standard = true ∧
    (Instr.pec15 64).wellFormed Config.standard = true ∧
    (Instr.pec15 65).wellFormed Config.standard = false ∧
    (Instr.rdcmd 2 9).wellFormed Config.standard = false ∧
    (Instr.wrcmd 1 9).wellFormed Config.standard = false ∧
    (Instr.rdchain 4 6 0).wellFormed Config.standard = false ∧
    (Instr.rdchain 4 6 9).wellFormed Config.standard = false ∧
    (Instr.wrchain 1 255 8).wellFormed Config.standard = false ∧
    (Instr.wrchain 1 6 0).wellFormed Config.standard = false ∧
    Instr.reserved7.wellFormed Config.standard = false := by decide

/-- R50, 95 section 2.5: `HDR(0x714) = 07 14 F3 6C`. -/
theorem test_wellFormed_wireH :
    (Instr.wireH 0x714 0x79B6).wellFormed Config.standard = true ∧
    (Instr.wireH 0x714 0x79B7).wellFormed Config.standard = false := by decide +kernel

/-- R51, 95 section 2.6: `SEG([5A]) = 5A E9 FC`; a payload of nine bytes is too long. -/
theorem test_wellFormed_wireD :
    (Instr.wireD [0x5A] 0x74FE).wellFormed Config.standard = true ∧
    (Instr.wireD [0x5A] 0x74FF).wellFormed Config.standard = false ∧
    (Instr.wireD [1, 2, 3, 4, 5, 6, 7, 8, 9] 0).wellFormed Config.standard = false := by
  decide +kernel

/-! ### Decoding, from words written out from the encodings -/

/-- R58: every value of `OP`, the operand registers zero. -/
theorem test_decode_operations :
    [0b000, 0b001, 0b010, 0b011, 0b100, 0b101, 0b110, 0b111].map (decodeTableWord 8) =
      [some .init, some (.pec15 0), some (.run 0), some (.rdcmd 0 0), some (.wrcmd 0 0),
       some (.rdchain 0 0 0), some (.wrchain 0 0 0), some .reserved7] ∧
    decodeTableWord 8 0b1000 = none := by decide

/-- R63: `PEC15` of 64 bytes; `WRCHAIN 0x721, 8, 8`; `RDCMD 0x722, 8`, as request images (log 18). -/
theorem test_decode_requests :
    decode .req [0b001, 0, 0, 64, 0] = .ok (.pec15 64) ∧
    decode .req [0b110, 0b111, 0b00100001, 8, 8] = .ok (.wrchain 0x721 8 8) ∧
    decode .req [0b011, 0b111, 0b00100010, 8, 0] = .ok (.rdcmd 0x722 8) ∧
    decode .req [0b010, 0b1000, 0, 0, 0] = .error .registerTooWide ∧
    decode .req [0b1000, 0, 0, 0, 0] = .error .registerTooWide ∧
    decode .req [0b101, 0, 0, 0, 16] = .error .registerTooWide ∧
    decode .req [0b000] = .error .wrongLength := by decide

/-- R50: `07 14 F3 6C` bit by bit, `00000 111 00010100 111100110110110 0`; its rejections. -/
theorem test_decode_wireH :
    decodeTableWord 32 0b00000111000101001111001101101100 = some (.wireH 0x714 0x79B6) ∧
    decodeH [0x08, 0, 0, 0] = .error .headerUpperBits ∧
    decodeH [0x00, 0, 0, 1] = .error .pecBitZero ∧
    decodeH [0x00, 0, 0] = .error .wrongLength := by decide

/-- R51: `SEG([5A]) = 5A E9 FC` and the shortest segment `00 20`; its rejections. -/
theorem test_decode_wireD :
    decodeTableWord 24 0b010110101110100111111100 = some (.wireD [0x5A] 0x74FE) ∧
    decodeTableWord 16 0x0020 = some (.wireD [] 0x0010) ∧
    decodeD [0xE9, 0xFD] = .error .pecBitZero ∧
    decodeD [0x20] = .error .wrongLength := by decide

/-! ### The PEC15 generator -/

/-- The table of 95_test_vectors.md section 2.1, rows 0 to 3. -/
def reference03 : List Rem :=
  [0x0000, 0x4599, 0x4EAB, 0x0B32, 0x58CF, 0x1D56, 0x1664, 0x53FD,
   0x7407, 0x319E, 0x3AAC, 0x7F35, 0x2CC8, 0x6951, 0x6263, 0x27FA,
   0x2D97, 0x680E, 0x633C, 0x26A5, 0x7558, 0x30C1, 0x3BF3, 0x7E6A,
   0x5990, 0x1C09, 0x173B, 0x52A2, 0x015F, 0x44C6, 0x4FF4, 0x0A6D] ++
  [0x5B2E, 0x1EB7, 0x1585, 0x501C, 0x03E1, 0x4678, 0x4D4A, 0x08D3,
   0x2F29, 0x6AB0, 0x6182, 0x241B, 0x77E6, 0x327F, 0x394D, 0x7CD4,
   0x76B9, 0x3320, 0x3812, 0x7D8B, 0x2E76, 0x6BEF, 0x60DD, 0x2544,
   0x02BE, 0x4727, 0x4C15, 0x098C, 0x5A71, 0x1FE8, 0x14DA, 0x5143]

/-- The same table, the last row. -/
def referenceF : List Rem :=
  [0x276F, 0x62F6, 0x69C4, 0x2C5D, 0x7FA0, 0x3A39, 0x310B, 0x7492,
   0x5368, 0x16F1, 0x1DC3, 0x585A, 0x0BA7, 0x4E3E, 0x450C, 0x0095]

/-- R72, R82: the first 64 and the last 16 entries of the reference table. -/
theorem test_table_values :
    builtTable.toList.take 64 = reference03 ∧ builtTable.toList.drop 240 = referenceF := by
  decide +kernel

/-- R71's examples; R73's example and two rows of 95 section 2.3. -/
theorem test_steps :
    step1 0x0080 = 0x0100 ∧ step1 0x4000 = 0x4599 ∧ step1 0x7F80 = 0x3A99 ∧
    upd builtTable 0x0010 0x01 = 0x5599 ∧ upd builtTable 0x5599 0x02 = 0x51A3 ∧
    upd builtTable 0x7FFF 0x00 = 0x7F95 := by decide +kernel

/-- 95 section 2.4, by the table and bit by bit. -/
theorem test_pec_values :
    [[], [0x00, 0x01], [0x01, 0x00], payloadE, [0x00, 0x20]].map (pec15 builtTable) =
      [0x0020, 0x3D6E, 0x3E10, 0x7B10, 0x0000] ∧
    [[], [0x00, 0x01], [0x01, 0x00], payloadE, [0x00, 0x20]].map bit15 =
      [0x0020, 0x3D6E, 0x3E10, 0x7B10, 0x0000] := by decide +kernel

/-- R90's examples. -/
theorem test_headers :
    [0x001, 0x7FF, 0x020].map (hdr builtTable) =
      [[0x00, 0x01, 0x3D, 0x6E], [0x07, 0xFF, 0x18, 0xF6], [0x00, 0x20, 0x00, 0x00]] := by
  decide +kernel

/-! ### One step of each instruction -/

/-- 95 section 2.2: `INIT` as the first request after reset; `TBL[1] = POLY`. -/
theorem test_init_from_reset :
    (match step (State.reset.withFetchWord 8 0b000) with
      | .next s => some (s.status, s.tblReady, lookup s.tbl 1, s.trace)
      | _ => none) = some (.ok, true, 0x4599, []) := by decide +kernel

/-- R75's worked example, and a length above `TXBUF_SIZE`. -/
theorem test_pec15 :
    seenPec (exec (.pec15 2) (holding [0x00, 0x01])) = some 0x3D6E ∧
    seenStatus (exec (.pec15 65) built) = some .rejected := by decide +kernel

/-- R93's worked example. -/
theorem test_run :
    seen (exec (.run 0x714) (answering [.ok []])) = some (.ok, 0x00,
      [.select, .transferOut [0x07, 0x14, 0xF3, 0x6C] none, .deselect]) := by decide +kernel

/-- R94's worked example with one payload bit flipped. -/
theorem test_rdcmd_mismatch :
    seen (exec (.rdcmd 0x002 6)
      (answering [.ok [], .ok [0xE5, 0x52, 0x37, 0xA0, 0x00, 0x50, 0x7B, 0x10]])) =
    some (.pecMismatch, 0x01,
      [.select, .transferOut [0x00, 0x02, 0x2B, 0x0A] none,
       .transferIn 8 (.ok [0xE5, 0x52, 0x37, 0xA0, 0x00, 0x50, 0x7B, 0x10]), .deselect]) := by
  decide +kernel

/-- 95 section 2.9: the receive of a read fails. -/
theorem test_rdcmd_receive_fails :
    (match exec (.rdcmd 0x002 6) (answering [.ok [], .fail { tag := 7 }]) with
      | .next s => some (s.status, s.terr, s.cs, s.trace)
      | _ => none) =
    some (.transportErr, { tag := 7 }, .released,
      [.select, .transferOut [0x00, 0x02, 0x2B, 0x0A] none, .transferIn 8 (.fail { tag := 7 }),
       .deselect]) := by decide +kernel

/-- R95's worked example. -/
theorem test_wrcmd :
    seen (exec (.wrcmd 0x001 6) (holding payloadE)) = some (.ok, 0x00,
      [.select,
       .transferOut ([0x00, 0x01, 0x3D, 0x6E] ++ payloadE ++ [0x7B, 0x10]) none,
       .deselect]) := by decide +kernel

/-- R96's worked example: the middle device's PEC is corrupted. -/
theorem test_rdchain_isolation :
    seenStatus (exec (.rdchain 0x004 6 3) (answering [.ok [], .ok (payloadA ++ [0x24, 0x28] ++
      payloadB ++ [0xEB, 0x9E] ++ payloadC ++ [0x0E, 0xAE])])) = some .pecMismatch ∧
    (seen (exec (.rdchain 0x004 6 3) (answering [.ok [], .ok (payloadA ++ [0x24, 0x28] ++
      payloadB ++ [0xEB, 0x9E] ++ payloadC ++ [0x0E, 0xAE])]))).map (fun o => o.2.1) =
      some 0x02 := by decide +kernel

/-- 95 section 2.7 row 24: two empty records, the second with bit 0 of its PEC set. -/
theorem test_rdchain_empty_records :
    (seen (exec (.rdchain 0x004 0 2) (answering [.ok [], .ok [0x00, 0x20, 0x00, 0x21]]))).map
      (fun o => o.2.1) = some 0x02 := by decide +kernel

/-- R97's worked example: farthest device first on the wire. -/
theorem test_wrchain_order :
    seen (exec (.wrchain 0x001 6 3) (holding (payloadA ++ payloadB ++ payloadC))) =
    some (.ok, 0x00,
      [.select,
       .transferOut ([0x00, 0x01, 0x3D, 0x6E] ++ payloadC ++ [0x0E, 0xAE] ++
         payloadB ++ [0x6B, 0x9E] ++ payloadA ++ [0x24, 0x28]) none,
       .deselect]) := by decide +kernel

/-- R114: `NDEV` 0 and 9 are rejected with no transport call, table built or not (R118). -/
theorem test_chain_rejections :
    seen (exec (.wrchain 0x001 6 9) built) = some (.rejected, 0x00, []) ∧
    seen (exec (.rdchain 0x004 6 0) State.reset) = some (.rejected, 0x00, []) := by decide +kernel

/-- R59; and the two wire rows, which are no operations. -/
theorem test_reserved_and_wire :
    seenStatus (step (State.reset.withFetchWord 8 0b111)) = some .rejected ∧
    refusalOf (exec (.wireH 0x714 0x79B6) built) = some .wireFormatIsNoOperation ∧
    refusalOf (exec (.wireD [] 0x0010) built) = some .wireFormatIsNoOperation := by decide +kernel

/-- R115: a legal CRC-using request before `INIT`; a step while busy (log 9). -/
theorem test_faults :
    faultOf (step (State.reset.withFetchWord 8 0b010)) = some .tableNotBuilt ∧
    faultOf (step { built with seq := .sent }) = some .blockBusy := by decide +kernel

/-! ### Witnesses: for each statement with hypotheses, a state that meets them -/

theorem built_tableSound : built.tableSound := fun _ => rfl

theorem witness_EncodeDecodeWireAgree :
    Format.h ≠ .req ∧ decode .h [0x07, 0x14, 0xF3, 0x6C] = .ok (.wireH 0x714 0x79B6) ∧
    Format.d ≠ .req ∧ decode .d [0x00, 0x20] = .ok (.wireD [] 0x0010) := by decide

theorem witness_PecBytesAndComparison : (0x21#8).getLsbD 0 = true := by decide

theorem witness_PositionFlags : 0 < 8 ∧ 7 < 8 := by decide

theorem witness_TableEntriesDiffer : lookup builtTable 0xFF = lookup builtTable 0xFF := rfl

theorem witness_Pec15IsAffine : ([0xAA, 0x55] : List Byte).length = [0x55, 0xAA].length := rfl

theorem witness_SingleBitChangeChangesPec :
    5 < payloadE.length ∧ 0 < 8 ∧ 0 < payloadE.length ∧ 7 < 8 := by decide

theorem witness_HeaderPecsDiffer :
    pec15 builtTable (cmdBytes 0x020) = pec15 builtTable (cmdBytes 0x020) := rfl

theorem witness_EmptyInputAndPurity :
    built.tblReady = true ∧ (0 : Len).toNat ≤ 8 * built.config.maxDataLen ∧
    (64 : Len).toNat ≤ 8 * built.config.maxDataLen := by decide +kernel

theorem witness_Pec15Completes :
    built.tblReady = true ∧ built.tableSound ∧ (64 : Len).toNat ≤ 8 * built.config.maxDataLen :=
  ⟨rfl, built_tableSound, by decide +kernel⟩

theorem witness_RunCompletes :
    (answering [.ok []]).tblReady = true ∧ (answering [.ok []]).tableSound ∧
    (answering [.ok []]).frame.wf = true ∧ (answering [.ok []]).answer = .ok [] :=
  ⟨rfl, fun _ => rfl, rfl, rfl⟩

theorem witness_WrcmdCompletes :
    (holding payloadE).tblReady = true ∧ (holding payloadE).tableSound ∧
    (holding payloadE).frame.wf = true ∧ (8 : Len).toNat ≤ (holding payloadE).config.maxDataLen ∧
    (0 : Len).toNat ≤ (holding payloadE).config.maxDataLen ∧
    (holding payloadE).answer = .ok [] :=
  ⟨rfl, fun _ => rfl, rfl, by decide +kernel, by decide +kernel, rfl⟩

theorem witness_WrchainCompletes :
    (holding payloadE).tblReady = true ∧ (holding payloadE).tableSound ∧
    (holding payloadE).frame.wf = true ∧ (8 : Len).toNat ≤ (holding payloadE).config.maxDataLen ∧
    1 ≤ (8 : NDev).toNat ∧ (8 : NDev).toNat ≤ 8 ∧ 1 ≤ (1 : NDev).toNat ∧ (1 : NDev).toNat ≤ 8 ∧
    (holding payloadE).answer = .ok [] :=
  ⟨rfl, fun _ => rfl, rfl, by decide +kernel, by decide, by decide, by decide, by decide, rfl⟩

/-- A record that passes and one that fails: both clauses. -/
theorem witness_RdcmdCompletes :
    (answering [.ok [], .ok [0x00, 0x20]]).tableSound ∧
    (answering [.ok [], .ok [0x00, 0x20]]).tblReady = true ∧
    (answering [.ok [], .ok [0x00, 0x20]]).frame.wf = true ∧
    (answering [.ok [], .ok [0x00, 0x20]]).rxbuf.wf = true ∧
    (0 : Len).toNat ≤ (answering [.ok [], .ok [0x00, 0x20]]).config.maxDataLen ∧
    (answering [.ok [], .ok [0x00, 0x20]]).answer = .ok [] ∧
    (answering [.ok [], .ok [0x00, 0x20]]).answered.receiveAnswer ((0 : Len).toNat + 2) =
      .ok [0x00, 0x20] ∧
    pec15 builtTable (List.take (0 : Len).toNat [0x00, 0x20]) = pecValue 0x00 0x20 ∧
    (answering [.ok [], .ok [0x00, 0x00]]).answered.receiveAnswer ((0 : Len).toNat + 2) =
      .ok [0x00, 0x00] ∧
    pec15 builtTable (List.take (0 : Len).toNat [0x00, 0x00]) ≠ pecValue 0x00 0x00 :=
  ⟨fun _ => rfl, rfl, rfl, rfl, by decide +kernel, rfl, by decide +kernel, by decide +kernel,
    by decide +kernel, by decide +kernel⟩

/-- Two empty records of which the second fails: positions 0, 1 and 7 of the mask clause. -/
theorem witness_RdchainCompletes :
    (answering [.ok [], .ok [0x00, 0x20, 0x00, 0x21]]).tableSound ∧
    (answering [.ok [], .ok [0x00, 0x20, 0x00, 0x21]]).tblReady = true ∧
    (answering [.ok [], .ok [0x00, 0x20, 0x00, 0x21]]).frame.wf = true ∧
    (answering [.ok [], .ok [0x00, 0x20, 0x00, 0x21]]).rxbuf.wf = true ∧
    (0 : Len).toNat ≤ (answering [.ok [], .ok [0x00, 0x20, 0x00, 0x21]]).config.maxDataLen ∧
    1 ≤ (2 : NDev).toNat ∧ (2 : NDev).toNat ≤ 8 ∧
    (answering [.ok [], .ok [0x00, 0x20, 0x00, 0x21]]).answer = .ok [] ∧
    (answering [.ok [], .ok [0x00, 0x20, 0x00, 0x21]]).answered.receiveAnswer
      (((0 : Len).toNat + 2) * (2 : NDev).toNat) = .ok [0x00, 0x20, 0x00, 0x21] ∧
    recordFails [0x00, 0x20, 0x00, 0x21] 0 0 = false ∧
    recordFails [0x00, 0x20, 0x00, 0x21] 0 1 = true ∧ 7 < 8 ∧ ¬7 < (2 : NDev).toNat :=
  ⟨fun _ => rfl, rfl, rfl, rfl, by decide +kernel, by decide, by decide, rfl, by decide +kernel,
    by decide +kernel, by decide +kernel, by decide, by decide⟩

/-- A completed and a rejected operation that receives nothing. -/
theorem witness_SendingFrame :
    isFramer (.run 0x714) = true ∧ receivedCount (.run 0x714) = 0 ∧
    seenStatus (exec (.run 0x714) (answering [.ok []])) = some .ok ∧
    isFramer (.wrcmd 1 9) = true ∧ receivedCount (.wrcmd 1 9) = 0 ∧
    seenStatus (exec (.wrcmd 1 9) built) = some .rejected := by decide +kernel

/-- A completed, a failed and a rejected read. -/
theorem witness_ReadingFrame :
    (∃ cmd len, Instr.rdcmd 2 0 = .rdcmd cmd len) ∧
    seenStatus (exec (.rdcmd 2 0) (answering [.ok [], .ok [0x00, 0x20]])) = some .ok ∧
    seenStatus (exec (.rdcmd 2 0) (answering [.fail { tag := 1 }])) = some .transportErr ∧
    (∃ cmd len ndev, Instr.rdchain 2 9 1 = .rdchain cmd len ndev) ∧
    seenStatus (exec (.rdchain 2 9 1) built) = some .rejected :=
  ⟨⟨_, _, rfl⟩, by decide +kernel, by decide +kernel, ⟨_, _, _, rfl⟩, by decide +kernel⟩

/-- Each clause at the first value past its bound. -/
theorem witness_IllegalRequestsAreRejected :
    8 * built.config.maxDataLen < (65 : Len).toNat ∧ built.config.maxDataLen < (9 : Len).toNat ∧
    (0 : NDev).toNat = 0 ∧ 8 < (9 : NDev).toNat := by decide +kernel

theorem witness_TableNotBuiltFaults :
    computesPec (.pec15 0) = true ∧ (Instr.pec15 0).wellFormed State.reset.config = true ∧
    computesPec (.wrchain 1 8 8) = true ∧
    (Instr.wrchain 1 8 8).wellFormed State.reset.config = true ∧
    State.reset.tblReady = false := by decide +kernel

theorem witness_SendFailureIsReported :
    isFramer (.wrchain 1 8 8) = true ∧
    (Instr.wrchain 1 8 8).wellFormed (answering [.fail { tag := 7 }]).config = true ∧
    (answering [.fail { tag := 7 }]).tblReady = true ∧
    (answering [.fail { tag := 7 }]).tableSound ∧
    (answering [.fail { tag := 7 }]).frame.wf = true ∧
    (answering [.fail { tag := 7 }]).answer = .fail { tag := 7 } :=
  ⟨rfl, by decide +kernel, rfl, fun _ => rfl, rfl, rfl⟩

theorem witness_ReceiveFailureIsReported :
    isFramer (.rdchain 4 6 2) = true ∧ receivedCount (.rdchain 4 6 2) ≠ 0 ∧
    (Instr.rdchain 4 6 2).wellFormed (answering [.ok [], .fail { tag := 7 }]).config = true ∧
    (answering [.ok [], .fail { tag := 7 }]).tblReady = true ∧
    (answering [.ok [], .fail { tag := 7 }]).tableSound ∧
    (answering [.ok [], .fail { tag := 7 }]).frame.wf = true ∧
    (answering [.ok [], .fail { tag := 7 }]).answer = .ok [] ∧
    (answering [.ok [], .fail { tag := 7 }]).answered.answer = .fail { tag := 7 } :=
  ⟨rfl, by decide, by decide +kernel, rfl, fun _ => rfl, rfl, rfl, rfl⟩

/-- A framer operation that is not rejected, one that is, and one that is no framer operation. -/
theorem witness_BusDiscipline :
    isFramer (.run 0x714) = true ∧
    seenStatus (exec (.run 0x714) (answering [.fail { tag := 1 }])) = some .transportErr ∧
    seenStatus (exec (.rdcmd 2 9) built) = some .rejected ∧
    isFramer .init = false ∧ seenStatus (exec .init State.reset) = some .ok := by decide +kernel

theorem witness_ReceivingCalls :
    seen (exec (.rdcmd 4 0) (answering [.ok [], .ok [0x00, 0x20]])) = some (.ok, 0x00,
      (answering []).trace ++
        [.select, .transferOut [0x00, 0x04, 0x07, 0xC2] none, .transferIn 2 (.ok [0x00, 0x20]),
         .deselect]) := by decide +kernel

theorem witness_MismatchIsReportedExactly :
    (answering [.ok [], .ok [0x00, 0x00]]).tableSound ∧
    (answering [.ok [], .ok [0x00, 0x00]]).rxbuf.wf = true ∧
    seen (exec (.rdcmd 4 0) (answering [.ok [], .ok [0x00, 0x00]])) = some (.pecMismatch, 0x01,
      (answering []).trace ++
        [.select, .transferOut [0x00, 0x04, 0x07, 0xC2] none, .transferIn 2 (.ok [0x00, 0x00]),
         .deselect]) ∧
    0 < recordsChecked (.rdcmd 4 0) ∧ recordFails [0x00, 0x00] 0 0 = true :=
  ⟨fun _ => rfl, rfl, by decide +kernel⟩

theorem witness_ChipSelectFollowsPhase :
    built.select.cs = .asserted ∧ built.select.seq ≠ .idle ∧ isFramer (.run 0) = true ∧
    seenStatus (exec (.run 0) (answering [.fail { tag := 0 }])) = some .transportErr := by
  decide +kernel

theorem witness_OutcomesOfEachOperation :
    seenStatus (exec .init State.reset) = some .ok ∧
    seenStatus (exec (.pec15 255) built) = some .rejected ∧
    seenStatus (exec (.run 0) (answering [.ok []])) = some .ok ∧
    seenStatus (exec (.wrcmd 1 0) (answering [.fail { tag := 0 }])) = some .transportErr ∧
    seenStatus (exec (.wrchain 1 0 0) built) = some .rejected ∧
    seenStatus (exec .reserved7 State.reset) = some .rejected := by decide +kernel

theorem witness_OnlyInitWritesTheTable :
    Instr.run 0 ≠ .init ∧ (answering [.ok []]).tblReady = true ∧
    seenStatus (exec (.run 0) (answering [.ok []])) = some .ok := by decide +kernel

theorem witness_HostOwnedStateIsNeverWritten :
    seenStatus (exec (.pec15 1) (holding [0x5A])) = some .ok := by decide +kernel

theorem witness_OnlyPec15WritesPecOut :
    (∀ len, Instr.init ≠ .pec15 len) ∧ seenStatus (exec .init State.reset) = some .ok ∧
    seenPec (exec (.pec15 1) (holding [0x5A])) = some 0xE9FC ∧ (0xE9FC : Pec) ≠ built.pecOut :=
  ⟨(fun _ h => by cases h), by decide +kernel, by decide +kernel, by decide +kernel⟩

/-- Two states that differ in every result register. -/
def stale : State :=
  { answering [.ok []] with
    status := .transportErr, errmask := 0xFF, terr := { tag := 9 }, pecOut := 0x0020, op := 7,
    rxbuf := [(0, 0xAA)], frame := [(5, 0x55)], trace := [.select, .deselect] }

theorem witness_EarlierOutcomesDoNotMatter :
    stale.config = (answering [.ok []]).config ∧ stale.txbuf = (answering [.ok []]).txbuf ∧
    stale.tbl = (answering [.ok []]).tbl ∧ stale.tblReady = (answering [.ok []]).tblReady ∧
    stale.answers = (answering [.ok []]).answers ∧ stale.draws = (answering [.ok []]).draws ∧
    (answering [.ok []]).frame.wf = true ∧ stale.frame.wf = true ∧
    (answering [.ok []]).rxbuf.wf = true ∧ stale.rxbuf.wf = true ∧
    seenStatus (exec (.run 0x714) (answering [.ok []])) = some .ok :=
  ⟨rfl, rfl, rfl, rfl, rfl, rfl, rfl, by decide +kernel, rfl, by decide +kernel,
    by decide +kernel⟩

/-- The invariant of a state with the table built and a request to come. -/
def loaded : State :=
  { answering [.ok []] with
    requests := [{ op := 2, cmd := 0x714, len := 0, ndev := 0, payload := [] }] }

theorem loaded_inv : loaded.Inv where
  ease := ⟨rfl, rfl⟩
  table := fun _ => rfl
  buffers := ⟨⟨rfl, rfl⟩, ⟨rfl, rfl⟩, ⟨rfl, rfl⟩⟩
  pecOut := rfl
  bus := rfl

theorem witness_InvariantKeptByEveryStep :
    loaded.Inv ∧ seenStatus (step loaded) = some .ok :=
  ⟨loaded_inv, by decide +kernel⟩

theorem witness_NoStopOnceTheTableIsBuilt : loaded.Inv ∧ loaded.tblReady = true :=
  ⟨loaded_inv, rfl⟩

theorem witness_StepRunsTheDecodedInstruction :
    loaded.seq = .idle ∧
    loaded.requests = { op := 2, cmd := 0x714, len := 0, ndev := 0, payload := [] } :: [] ∧
    decode .req (requestImage 2 0x714 0 0) = .ok (.run 0x714) :=
  ⟨rfl, rfl, by decide +kernel⟩

theorem witness_StepWithoutAnInstruction :
    built.seq = .idle ∧ built.requests = [] ∧ ({ built with seq := .sent } : State).seq ≠ .idle :=
  ⟨rfl, rfl, by decide +kernel⟩

/-- The last byte of the last device of the largest chain. -/
theorem witness_OffsetsStayInsideTheBuffers :
    (8 : Len).toNat ≤ Config.standard.maxDataLen ∧ 1 ≤ (8 : NDev).toNat ∧ (8 : NDev).toNat ≤ 8 ∧
    7 < (8 : NDev).toNat ∧ 9 < (8 : Len).toNat + 2 ∧ 7 < (8 : Len).toNat := by decide +kernel

/-- One device whose answer is its whole empty segment. -/
theorem witness_IntactChainReadsOk :
    (answering [.ok [], .ok ([[]].flatMap (seg builtTable))]).tblReady = true ∧
    (answering [.ok [], .ok ([[]].flatMap (seg builtTable))]).tableSound ∧
    (answering [.ok [], .ok ([[]].flatMap (seg builtTable))]).frame.wf = true ∧
    (answering [.ok [], .ok ([[]].flatMap (seg builtTable))]).rxbuf.wf = true ∧
    (0 : Len).toNat ≤ Config.standard.maxDataLen ∧ 1 ≤ (1 : NDev).toNat ∧ (1 : NDev).toNat ≤ 8 ∧
    ([[]] : List (List Byte)).length = (1 : NDev).toNat ∧
    (∀ d ∈ ([[]] : List (List Byte)), d.length = (0 : Len).toNat) ∧
    (answering [.ok [], .ok ([[]].flatMap (seg builtTable))]).answer = .ok [] ∧
    (answering [.ok [], .ok ([[]].flatMap (seg builtTable))]).answered.answer =
      .ok ([[]].flatMap (seg builtTable)) :=
  ⟨rfl, fun _ => rfl, rfl, rfl, by decide, by decide, by decide, rfl, by simp, rfl, rfl⟩

/-- What the three devices of `isolated` answer: the second with bit 7 of its last byte flipped. -/
def isolatedAnswer : List Byte :=
  (List.range (3 : NDev).toNat).flatMap fun i =>
    (if i = 1 then flipBit payloadB 5 7 else payloadB) ++ pecBytes (pec15 builtTable payloadB)

theorem witness_ChainedReadIsolation :
    (answering [.ok [], .ok isolatedAnswer]).tblReady = true ∧
    (answering [.ok [], .ok isolatedAnswer]).tableSound ∧
    (answering [.ok [], .ok isolatedAnswer]).frame.wf = true ∧
    (answering [.ok [], .ok isolatedAnswer]).rxbuf.wf = true ∧
    (6 : Len).toNat ≤ Config.standard.maxDataLen ∧ (3 : NDev).toNat ≤ 8 ∧
    (∀ i, i < (3 : NDev).toNat → payloadB.length = (6 : Len).toNat) ∧ 1 < (3 : NDev).toNat ∧
    5 < (6 : Len).toNat ∧ 7 < 8 ∧
    (answering [.ok [], .ok isolatedAnswer]).answer = .ok [] ∧
    (answering [.ok [], .ok isolatedAnswer]).answered.answer = .ok isolatedAnswer :=
  ⟨rfl, fun _ => rfl, rfl, rfl, by decide, by decide, fun _ _ => rfl, by decide, by decide,
    by decide, rfl, rfl⟩

end Sys2Proof.Tests
end

-- Chip select and sequencer phase (R23).
section
/-!
SUPPORT. The proof of R23: the two transfers never lead back to `IDLE`, and a framer operation that is
not rejected ends at ease, since the bus was released before its results were written.
-/

namespace Sys2Proof.Machine

/-- A `transfer_out` advances `SEQ` to `SENT` or leaves it (R92). -/
theorem sendBytes_seq_ne_idle {s : State} (out : List Byte) (h : s.seq ≠ .idle) :
    (s.sendBytes out).seq ≠ .idle := by
  rw [State.sendBytes_seq]
  split
  · decide
  · exact h

/-- A `transfer_in` advances `SEQ` to `RECEIVED` or leaves it (R92). -/
theorem receiveBytes_seq_ne_idle {s : State} (n : Nat) (h : s.seq ≠ .idle) :
    (s.receiveBytes n).seq ≠ .idle := by
  rw [State.receiveBytes_seq]
  cases s.receiveAnswer n with
  | ok rx => exact Phase.noConfusion
  | fail e => exact h

/-- Writing the results of a completed operation leaves the bus as the transaction left it. -/
theorem concluded_atEase {s u : State} (i : Instr) (rx : List Byte) (h : transacted s u) :
    (concluded i rx u).atEase := by
  obtain ⟨hcs, hseq, -⟩ := h
  exact ⟨hcs, hseq⟩

/-- A transport failure ends at ease (R113). -/
theorem raiseTransportErr_atEase (s : State) (e : TransportReport) :
    (s.raise (.transportErr e)).atEase :=
  ⟨rfl, rfl⟩

/-- A framer operation is rejected or ends at ease, on the error paths too (R119). -/
theorem exec_framer_rejected_or_atEase {i : Instr} {s t : State} (h : isFramer i = true)
    (he : exec i s = .next t) : t.status = .rejected ∨ t.atEase := by
  obtain ⟨-, hx⟩ | ⟨-, -, hx⟩ | ⟨-, -, _, u, -, -, hu, hend⟩ := exec_framer_cases h s
  · rw [hx] at he
    cases he
    exact .inl rfl
  · rw [hx] at he
    cases he
  · obtain ⟨e, -, hx⟩ | ⟨-, e, -, hx⟩ | ⟨-, -, hx⟩ | ⟨-, rx, -, -, hx⟩ := hend <;>
      rw [hx] at he <;> cases he
    · exact .inr (raiseTransportErr_atEase _ e)
    · exact .inr (raiseTransportErr_atEase _ e)
    · exact .inr (concluded_atEase i [] hu)
    · exact .inr (concluded_atEase i rx hu)

/-- Settles O36: the port's own updates give the first three parts, and the fourth is
`exec_framer_rejected_or_atEase` with the rejection excluded. -/
theorem chipSelectFollowsPhase : Obligations.ChipSelectFollowsPhase := by
  refine ⟨fun s => ⟨rfl, Phase.noConfusion, rfl, rfl⟩, fun s out hc hs => ?_, fun s n hc hs => ?_,
    fun i s t hi he hst => (exec_framer_rejected_or_atEase hi he).resolve_left hst⟩
  · exact ⟨(s.sendBytes_cs out).trans hc, sendBytes_seq_ne_idle out hs⟩
  · exact ⟨(s.receiveBytes_cs n).trans hc, receiveBytes_seq_ne_idle n hs⟩

end Sys2Proof.Machine
end

-- Bus discipline (R37).
section
/-!
SUPPORT. The proof of R37: the calls of a transaction that sends alone and of one that also receives are
bracketed by one `select` and one `deselect`, and an operation that ends off the bus makes no call.
-/

namespace Sys2Proof.Machine

/-- The calls of one operation that keeps the bus discipline (R37): `select` first and once, `deselect`
last and once, and between them the transfers of a whole transaction (R92). -/
def bracketed (calls : List TransportCall) : Prop :=
  calls.head? = some .select ∧ calls.getLast? = some .deselect ∧
    calls.count .select = 1 ∧ calls.count .deselect = 1 ∧ transactions calls = true

/-- The shapes of R92 that send alone, accepted or failed. -/
theorem bracketed_send {out : List Byte} (hout : hdrLen ≤ out.length)
    (failure : Option TransportReport) :
    bracketed [.select, .transferOut out failure, .deselect] := by
  refine ⟨rfl, rfl, rfl, rfl, ?_⟩
  cases failure <;> simp [transactions, hout]

/-- The shapes of R92 that also receive, with the count asked for or failed. -/
theorem bracketed_receive {out : List Byte} {n : Nat} {a : Answer} (hout : hdrLen ≤ out.length)
    (hn : pecLen ≤ n) (ha : ∀ rx, a = .ok rx → rx.length = n) :
    bracketed [.select, .transferOut out none, .transferIn n a, .deselect] := by
  refine ⟨rfl, rfl, rfl, rfl, ?_⟩
  cases a with
  | ok rx => simp [transactions, hout, hn, ha rx rfl]
  | fail e => simp [transactions, hout, hn]

/-- A framer operation is rejected with no call, or makes the calls of one bracketed transaction and is
not rejected, on the failing paths too. -/
theorem exec_framer_calls {i : Instr} (h : isFramer i = true) {s t : State}
    (he : exec i s = .next t) :
    (t.status = .rejected ∧ t.trace = s.trace) ∨
    (t.status ≠ .rejected ∧ ∃ calls, t.trace = s.trace ++ calls ∧ bracketed calls) := by
  obtain ⟨-, hx⟩ | ⟨-, -, hx⟩ | ⟨hlegal, -, out, u, hlen, -, -, hend⟩ := exec_framer_cases h s
  · rw [hx] at he
    cases he
    exact .inl ⟨rfl, rfl⟩
  · rw [hx] at he
    cases he
  · have hout : hdrLen ≤ out.length := hlen ▸ hdrLen_le_sentCount i
    refine .inr ?_
    obtain ⟨e, htr, hx⟩ | ⟨hn, e, htr, hx⟩ | ⟨-, htr, hx⟩ | ⟨hn, rx, hrx, htr, hx⟩ := hend <;>
      rw [hx] at he <;> cases he
    · exact ⟨Status.noConfusion, _, (u.spoilReceived_trace _).trans htr,
        bracketed_send hout (some e)⟩
    · exact ⟨Status.noConfusion, _, (u.spoilReceived_trace _).trans htr,
        bracketed_receive hout (two_le_receivedCount hlegal hn) fun _ hok => nomatch hok⟩
    · exact ⟨(statusOfMask_verified _).1, _, htr, bracketed_send hout none⟩
    · exact ⟨(statusOfMask_verified _).1, _, htr,
        bracketed_receive hout (two_le_receivedCount hlegal hn) fun _ hok => by
          cases hok
          exact hrx⟩

/-- An instruction that is no framer operation makes no transport call (R70). -/
theorem exec_nonframer_trace {i : Instr} (h : isFramer i = false) {s t : State}
    (he : exec i s = .next t) : t.trace = s.trace := by
  obtain ⟨-, rfl⟩ | ⟨_, -, rfl⟩ | ⟨_, -, -, rfl⟩ | ⟨-, rfl⟩ := exec_nonframer_cases h he <;> rfl

/-- Settles O33: a framer operation by `exec_framer_calls`, whose two cases are told apart by `STATUS`,
and any other instruction by `exec_nonframer_trace`. -/
theorem busDiscipline : Obligations.BusDiscipline := by
  intro i s t he
  cases hi : isFramer i with
  | false => exact ⟨[], by simpa using exec_nonframer_trace hi he, Bool.noConfusion, fun _ => rfl⟩
  | true =>
    obtain ⟨hst, htr⟩ | ⟨hst, calls, htr, hcalls⟩ := exec_framer_calls hi he
    · exact ⟨[], by simpa using htr, fun _ hne => absurd hst hne, fun _ => rfl⟩
    · exact ⟨calls, htr, fun _ _ => hcalls,
        fun hno => absurd (hno.resolve_left Bool.noConfusion) hst⟩

end Sys2Proof.Machine
end

-- Encodings of the commands, the PECs and the error flags (R52, R53, R54).
section
/-!
SUPPORT. The proofs of R52, R53 and R54: the numbers that the two bytes of a command and of a PEC stand
for, what the two PEC checks answer, and the bits of a position's flag.
-/

namespace Sys2Proof

/-- The operation map selects requests only: no wire format comes out of it (R52, R58). -/
theorem decodeRequest_format (op : OpCode) (cmd : Cmd) (len : Len) (ndev : NDev) :
    (decodeRequest op cmd len ndev).format = .req := by
  unfold decodeRequest
  split <;> rfl

end Sys2Proof

namespace Sys2Proof.Machine

/-- The low byte of a value. -/
theorem lowByte_toNat {w : Nat} (v : BitVec w) : (v.extractLsb' 0 8).toNat = v.toNat % 256 := by
  rw [BitVec.extractLsb'_toNat, Nat.shiftRight_zero]

/-- All the bits of a value above its low byte. -/
theorem bitsAboveLowByte_toNat {w n : Nat} (hw : w ≤ 8 + n) (v : BitVec w) :
    (v.extractLsb' 8 n).toNat = v.toNat / 256 := by
  have hv : v.toNat < 2 ^ 8 * 2 ^ n :=
    calc v.toNat < 2 ^ w := v.isLt
      _ ≤ 2 ^ (8 + n) := Nat.pow_le_pow_right Nat.two_pos hw
      _ = 2 ^ 8 * 2 ^ n := Nat.pow_add ..
  rw [BitVec.extractLsb'_toNat, Nat.shiftRight_eq_div_pow]
  exact Nat.mod_eq_of_lt (Nat.div_lt_of_lt_mul hv)

/-- The first command byte, zero-extended from three bits (R52). -/
theorem cmdHighByte_toNat (cmd : Cmd) :
    ((cmd.extractLsb' 8 3).setWidth 8).toNat = cmd.toNat / 256 := by
  rw [BitVec.toNat_setWidth_of_le (by decide), bitsAboveLowByte_toNat (by decide)]

/-- Two received bytes as a number, the first the high byte (R53). -/
theorem pecValue_toNat (b0 b1 : Byte) : (pecValue b0 b1).toNat = b0.toNat * 256 + b1.toNat := by
  rw [pecValue, BitVec.toNat_append, ← Nat.shiftLeft_add_eq_or_of_lt b1.isLt, Nat.shiftLeft_eq]

/-- Bit 0 of a received PEC is bit 0 of the byte received last. -/
theorem pecValue_getLsbD_zero (b0 b1 : Byte) : (pecValue b0 b1).getLsbD 0 = b1.getLsbD 0 := by
  rw [pecValue, BitVec.getLsbD_append, if_pos (by decide)]

/-- A computed PEC has bit 0 zero (R76), so no received PEC with bit 0 set is equal to it. -/
theorem pec15_ne_pecValue_of_bit_zero (t : Table) (d : List Byte) {b0 b1 : Byte}
    (h : b1.getLsbD 0 = true) : pec15 t d ≠ pecValue b0 b1 := by
  intro heq
  have hbit := pecOf_bit_zero (crcRem t d)
  rw [← pec15, heq, pecValue_getLsbD_zero, h] at hbit
  cases hbit

/-- The single check compares the PEC of the payload with the received one (R94). -/
theorem checkSingle_mask (t : Table) (rx : List Byte) (dlen : Nat) :
    (checkSingle t rx dlen).1 =
      if pec15 t (recordData rx 0 dlen) = recordPec rx 0 dlen then 0 else 1 :=
  ite_not ..

/-- The check of one chain position adds its flag to the mask unless the PECs are equal (R96). -/
theorem checkPosition_mask (t : Table) (rx : List Byte) (dlen i : Nat) (acc : Mask × Rem) :
    (checkPosition t rx dlen acc i).1 =
      if pec15 t (recordData rx (recordOffset dlen i) dlen) =
          recordPec rx (recordOffset dlen i) dlen
      then acc.1 else acc.1 ||| positionFlag i :=
  ite_not ..

/-- The payload of a record that is received alone. -/
theorem recordData_concat (d : List Byte) (b0 b1 : Byte) :
    recordData (d ++ [b0, b1]) 0 d.length = d := by
  simp [recordData]

/-- The received PEC of a record that is received alone. -/
theorem recordPec_concat (d : List Byte) (b0 b1 : Byte) :
    recordPec (d ++ [b0, b1]) 0 d.length = pecValue b0 b1 := by
  simp [recordPec]

/-- The single check of a payload and two received bytes compares the two 16-bit values (R53). -/
theorem checkSingle_concat (t : Table) (d : List Byte) (b0 b1 : Byte) :
    (checkSingle t (d ++ [b0, b1]) d.length).1 = if pec15 t d = pecValue b0 b1 then 0 else 1 := by
  rw [checkSingle_mask, recordData_concat, recordPec_concat]

/-- The flag of position `i` has bit `i` set and no other (R54). -/
theorem positionFlag_getLsbD {i k : Nat} (hk : k < 8) :
    (positionFlag i).getLsbD k = true ↔ k = i := by
  rw [positionFlag, ← BitVec.twoPow_eq, BitVec.getLsbD_twoPow, Bool.and_eq_true, decide_eq_true_eq,
    decide_eq_true_eq]
  omega

/-- Settles O5: the two bytes are the quotient and the remainder of `CMD` by 256, and a header's format
is not the one `decodeRequest_format` gives. -/
theorem commandBytes : Obligations.CommandBytes := by
  intro cmd
  have hlt : cmd.toNat < 2048 := cmd.isLt
  refine ⟨_, _, rfl, ?_, ?_, ?_, ?_, fun op c len ndev pec hdec => ?_⟩
  · rw [cmdHighByte_toNat, Nat.shiftRight_eq_div_pow]
  · rw [cmdHighByte_toNat]
    omega
  · rw [lowByte_toNat]
    exact (Nat.and_two_pow_sub_one_eq_mod cmd.toNat 8).symm
  · rw [cmdHighByte_toNat, lowByte_toNat, Nat.div_add_mod']
  · have hformat := decodeRequest_format op c len ndev
    rw [hdec] at hformat
    cases hformat

/-- Settles O6: the bytes and their value as numbers, the two checks as comparisons of 16-bit values,
and a computed PEC's zero bit 0 against the set bit of the received one. -/
theorem pecBytesAndComparison : Obligations.PecBytesAndComparison := by
  refine ⟨fun p => ⟨_, _, rfl, bitsAboveLowByte_toNat (by decide) p, lowByte_toNat p⟩, pecValue_toNat,
    fun t d b0 b1 => ?_, checkPosition_mask, fun t d b0 b1 hodd => ?_⟩
  · rw [checkSingle_concat]
    exact Ne.ite_eq_left_iff (by decide)
  · have hne := pec15_ne_pecValue_of_bit_zero t d (b0 := b0) hodd
    exact ⟨hne, (checkSingle_concat t d b0 b1).trans (if_neg hne)⟩

/-- Settles O7: the formula is the definition, and the bits are `positionFlag_getLsbD`. -/
theorem positionFlags : Obligations.PositionFlags :=
  ⟨fun _ _ => rfl, by decide, fun _ _ _ hk => positionFlag_getLsbD hk⟩

end Sys2Proof.Machine
end

-- Data segments pass the check of their PEC (R81).
section
/-!
SUPPORT. The proof of R81: what a reader finds in a data segment, and that it passes the check every
read makes.
-/

namespace Sys2Proof.Machine

/-- The bytes of `SEG(d)` at the payload's length are the payload. -/
theorem seg_take_payload (t : Table) (d : List Byte) : (seg t d).take d.length = d := by
  rw [seg, List.take_left]

/-- Behind the payload of `SEG(d)` a reader finds the bytes of its PEC, each at its own place. -/
theorem seg_getD_behind_payload (t : Table) (d : List Byte) (k : Nat) :
    (seg t d).getD (d.length + k) 0 = (pecBytes (pec15 t d)).getD k 0 := by
  rw [seg, List.getD_append_right _ _ _ _ (Nat.le_add_right ..), Nat.add_sub_cancel_left]

/-- The received PEC of `SEG(d)`, the first byte behind the payload being the high one (R53). -/
theorem seg_pecValue (t : Table) (d : List Byte) :
    pecValue ((seg t d).getD d.length 0) ((seg t d).getD (d.length + 1) 0) = pec15 t d := by
  have hhigh : (seg t d).getD d.length 0 = (pec15 t d).extractLsb' 8 8 :=
    seg_getD_behind_payload t d 0
  have hlow : (seg t d).getD (d.length + 1) 0 = (pec15 t d).extractLsb' 0 8 :=
    seg_getD_behind_payload t d 1
  rw [hhigh, hlow, pecValue_pecBytes]

/-- Settles O18: the two bytes behind the payload carry `PEC15(d)`, and the payload in front of them is
`d`. -/
theorem roundTripIntegrity : Obligations.RoundTripIntegrity := by
  intro t d
  rw [seg_pecValue, seg_take_payload]

end Sys2Proof.Machine
end

-- The layout of a data segment (R91).
section
/-!
SUPPORT. The proof of R91: a data segment is settled by the PEC of its payload, and the PECs of the two
worked examples.
-/

namespace Sys2Proof.Machine

/-- Behind a payload whose PEC is `p`, `SEG(d)` holds the two wire bytes of `p`. -/
theorem seg_of_pec15_eq {t : Table} {d : List Byte} {p : Pec} (h : pec15 t d = p) :
    seg t d = d ++ pecBytes p := by
  rw [seg, h]

/-- The PEC of no bytes is the shifted seed, whatever the table holds (R77). -/
theorem pec15_nil (t : Table) : pec15 t [] = 0x0020 := rfl

/-- The PEC of R91's first worked payload, looked up in the built table. -/
theorem pec15_builtTable_workedPayload :
    pec15 builtTable [0xA0, 0xA1, 0xA2, 0xA3, 0xA4, 0xA5] = 0x2428 := by
  decide +kernel

/-- Settles O19: the layout is the definition of `SEG`, and each worked example follows from the PEC of
its payload by `seg_of_pec15_eq`. -/
theorem dataSegmentLayout : Obligations.DataSegmentLayout :=
  ⟨fun t d => ⟨seg_of_pec15_eq rfl, seg_length t d⟩,
    seg_of_pec15_eq pec15_builtTable_workedPayload, seg_of_pec15_eq (pec15_nil builtTable)⟩

end Sys2Proof.Machine
end

-- A PEC mismatch is reported exactly (R112).
section
/-!
SUPPORT. The proof of R112: the bits of the mask a read ends with are the records that fail their check,
and an operation either completes both transfers of a read or ends in another outcome with other calls.
-/

namespace Sys2Proof.Machine

/-- Record `i` fails when the PEC of its data bytes is not the one received behind them (R112). -/
theorem recordFails_iff (rx : List Byte) (dlen i : Nat) :
    recordFails rx dlen i = true ↔
      pec15 builtTable (recordData rx (recordOffset dlen i) dlen) ≠
        recordPec rx (recordOffset dlen i) dlen :=
  decide_eq_true_iff

/-- The single check sets bit 0 when record 0 fails, and no other bit (R94). -/
theorem checkSingle_getLsbD (rx : List Byte) (dlen p : Nat) :
    (checkSingle builtTable rx dlen).1.getLsbD p = true ↔ p < 1 ∧ recordFails rx dlen p = true := by
  rw [checkSingle_mask, Nat.lt_one_iff]
  cases p with
  | zero =>
    rw [recordFails_iff, show recordOffset dlen 0 = 0 from Nat.zero_mul _]
    split
    case isTrue hpec => simp [hpec]
    case isFalse hpec => simp [hpec]
  | succ p => split <;> simp

/-- The check of one chain position adds the bit of that position when its record fails (R96). -/
theorem checkPosition_getLsbD (rx : List Byte) (dlen i : Nat) (acc : Mask × Rem) {p : Nat}
    (hp : p < 8) :
    (checkPosition builtTable rx dlen acc i).1.getLsbD p = true ↔
      acc.1.getLsbD p = true ∨ p = i ∧ recordFails rx dlen p = true := by
  have hsame : (p = i ∧ recordFails rx dlen p = true) ↔ (p = i ∧ recordFails rx dlen i = true) :=
    and_congr_right fun h => by rw [h]
  rw [checkPosition_mask, hsame, recordFails_iff]
  split
  case isTrue hpec => simp [hpec]
  case isFalse hpec =>
    rw [BitVec.getLsbD_or, Bool.or_eq_true, positionFlag_getLsbD hp, and_iff_left hpec]

/-- The chained check sets the bit of every failing position and no other (R96). -/
theorem checkChain_getLsbD (rx : List Byte) (dlen : Nat) (r : Rem) {p : Nat} (hp : p < 8) :
    ∀ ndev, (checkChain builtTable rx dlen ndev r).1.getLsbD p = true ↔
      p < ndev ∧ recordFails rx dlen p = true
  | 0 => by simp [checkChain]
  | ndev + 1 => by
    have hstep : checkChain builtTable rx dlen (ndev + 1) r =
        checkPosition builtTable rx dlen (checkChain builtTable rx dlen ndev r) ndev := by
      simp [checkChain, List.range_succ]
    rw [hstep, checkPosition_getLsbD rx dlen ndev _ hp, checkChain_getLsbD rx dlen r hp ndev,
      Nat.lt_succ_iff_lt_or_eq, or_and_right]

/-- Bit `p` of the mask an operation ends with says whether it checks a record `p` that fails. -/
theorem verdict_getLsbD (i : Instr) (rx : List Byte) {s : State} (ht : s.tbl = builtTable) {p : Nat}
    (hp : p < 8) :
    (verdict i rx s).1.getLsbD p = true ↔
      p < recordsChecked i ∧ recordFails rx (recordPayload i) p = true := by
  cases i with
  | rdcmd cmd len =>
    rw [verdict, ht]
    exact checkSingle_getLsbD rx len.toNat p
  | rdchain cmd len ndev =>
    rw [verdict, ht]
    exact checkChain_getLsbD rx len.toNat s.rem hp ndev.toNat
  | _ => simp [verdict, recordsChecked]

/-- A legal operation checks no more records than `ERRMASK` has bits (R60). -/
theorem recordsChecked_le_eight {i : Instr} {c : Config} (hw : i.wellFormed c = true) :
    recordsChecked i ≤ 8 := by
  cases i with
  | rdcmd cmd len => exact Nat.one_le_ofNat
  | rdchain cmd len ndev =>
    simp only [Instr.wellFormed, chainLegal, ndevLegal, Bool.and_eq_true, decide_eq_true_eq] at hw
    exact hw.2.2
  | _ => exact Nat.zero_le 8

/-- A mask with any bit set gives `PEC_MISMATCH`, and only such a mask does (R96, D21). -/
theorem statusOfMask_eq_pecMismatch_iff (m : Mask) :
    statusOfMask m = .pecMismatch ↔ ∃ p, p < 8 ∧ m.getLsbD p = true := by
  unfold statusOfMask
  split
  case isTrue hm => simp [hm]
  case isFalse hm =>
    refine iff_of_true rfl ?_
    by_contra hnone
    exact hm (BitVec.eq_of_getLsbD_eq fun p hp => by simpa using fun hbit => hnone ⟨p, hp, hbit⟩)

/-- A legal operation whose transfers succeeded ends in `PEC_MISMATCH` exactly when a record fails. -/
theorem concluded_status_eq_pecMismatch_iff {i : Instr} {c : Config} (hw : i.wellFormed c = true)
    (rx : List Byte) {s : State} (ht : s.tbl = builtTable) :
    (concluded i rx s).status = .pecMismatch ↔
      ∃ p, p < recordsChecked i ∧ recordFails rx (recordPayload i) p = true := by
  rw [concluded_status, statusOfMask_eq_pecMismatch_iff]
  constructor
  · rintro ⟨p, hp, hbit⟩
    exact ⟨p, (verdict_getLsbD i rx ht hp).mp hbit⟩
  · rintro ⟨p, hlt, hfails⟩
    have hp : p < 8 := Nat.lt_of_lt_of_le hlt (recordsChecked_le_eight hw)
    exact ⟨p, hp, (verdict_getLsbD i rx ht hp).mpr ⟨hlt, hfails⟩⟩

/-- Only the two reads receive anything (R39, R56). -/
theorem isRead_of_receivedCount_ne_zero {i : Instr} (h : receivedCount i ≠ 0) :
    (∃ cmd len, i = .rdcmd cmd len) ∨ ∃ cmd len ndev, i = .rdchain cmd len ndev := by
  cases i with
  | rdcmd cmd len => exact .inl ⟨cmd, len, rfl⟩
  | rdchain cmd len ndev => exact .inr ⟨cmd, len, ndev, rfl⟩
  | _ => exact absurd rfl h

/-- An operation that checks a record receives it (R94, R96). -/
theorem recordsChecked_eq_zero_of_receivedCount {i : Instr} (h : receivedCount i = 0) :
    recordsChecked i = 0 := by
  cases i with
  | rdcmd cmd len => cases h
  | rdchain cmd len ndev => exact (Nat.mul_eq_zero.mp h).resolve_left (Nat.succ_ne_zero _)
  | _ => rfl

/-- After a read whose transfers succeeded, `RXBUF` holds every received byte at its index (R22). -/
theorem stored_read {i : Instr} (hn : receivedCount i ≠ 0) {s : State} (hwf : s.rxbuf.wf = true)
    {rx : List Byte} {k : Nat} (hk : k < rx.length) : (stored i rx s).read k = rx.getD k 0 := by
  have hwritten : (s.rxbuf.writeBytes 0 rx).read k = rx.getD k 0 := by
    simpa using Memory.read_writeBytes_inside rx 0 k hwf hk
  obtain ⟨_, _, rfl⟩ | ⟨_, _, _, rfl⟩ := isRead_of_receivedCount_ne_zero hn <;> exact hwritten

/-- The transport calls of an operation leave the table alone (R119). -/
theorem transacted_tbl {s u : State} (h : transacted s u) : u.tbl = s.tbl := by
  rw [h.2.2]

/-- The transport calls of an operation leave `RXBUF` alone until its results are written (R94). -/
theorem transacted_rxbuf {s u : State} (h : transacted s u) : u.rxbuf = s.rxbuf := by
  rw [h.2.2]

/-- The calls of a read whose two transfers both succeeded (R92, second shape). -/
def readCalls (out : List Byte) (i : Instr) (rx : List Byte) : List TransportCall :=
  [.select, .transferOut out none, .transferIn (receivedCount i) (.ok rx), .deselect]

/-- The calls of a read tell what it received. -/
theorem readCalls_received_eq {i : Instr} {out out' rx rx' : List Byte}
    (h : readCalls out i rx = readCalls out' i rx') : rx = rx' := by
  cases h
  rfl

/-- `t` is what `i` makes of `s` when it sends `out` and receives `rx`, both transfers succeeding. -/
def readCompleted (i : Instr) (s t : State) (out rx : List Byte) : Prop :=
  i.wellFormed s.config = true ∧ s.tblReady = true ∧ receivedCount i ≠ 0 ∧
    rx.length = receivedCount i ∧
    ∃ u, transacted s u ∧ u.trace = s.trace ++ readCalls out i rx ∧ t = concluded i rx u

/-- An instruction that goes on completes both transfers of a read, or reports no mismatch and makes
other calls. -/
theorem exec_readCompleted_or {i : Instr} {s t : State} (hs : s.tableSound)
    (he : exec i s = .next t) :
    (∃ out rx, readCompleted i s t out rx) ∨
      (t.status ≠ .pecMismatch ∧ ∀ out rx, t.trace ≠ s.trace ++ readCalls out i rx) := by
  cases hi : isFramer i with
  | false =>
    refine .inr ⟨?_, fun out rx => by simp [exec_nonframer_trace hi he, readCalls]⟩
    obtain ⟨-, rfl⟩ | ⟨_, -, rfl⟩ | ⟨_, -, -, rfl⟩ | ⟨-, rfl⟩ := exec_nonframer_cases hi he <;>
      exact Status.noConfusion
  | true =>
    obtain ⟨-, hx⟩ | ⟨-, -, hx⟩ | ⟨hw, hr, out, u, -, -, hu, hend⟩ := exec_framer_cases hi s
    · rw [hx] at he
      cases he
      exact .inr ⟨Status.noConfusion, fun out rx => by simp [readCalls]⟩
    · rw [hx] at he
      cases he
    · obtain ⟨e, htr, hx⟩ | ⟨-, e, htr, hx⟩ | ⟨hn, htr, hx⟩ | ⟨hn, rx, hrx, htr, hx⟩ := hend <;>
        rw [hx] at he <;> cases he
      · exact .inr ⟨Status.noConfusion, fun _ _ => by simp [htr, readCalls]⟩
      · exact .inr ⟨Status.noConfusion, fun _ _ => by simp [htr, readCalls]⟩
      · have hnone := recordsChecked_eq_zero_of_receivedCount hn
        have ht : u.tbl = builtTable := (transacted_tbl hu).trans (hs hr)
        refine .inr ⟨?_, fun _ _ => by simp [htr, readCalls]⟩
        rw [Ne, concluded_status_eq_pecMismatch_iff hw [] ht]
        simp [hnone]
      · exact .inl ⟨out, rx, hw, hr, hn, hrx, u, hu, htr, rfl⟩

/-- Settles O35: by `exec_readCompleted_or` only a read whose two transfers succeeded is left, and there
`STATUS` and `ERRMASK` both say which records fail. -/
theorem mismatchIsReportedExactly : Obligations.MismatchIsReportedExactly := by
  intro i s t hs hwf he
  obtain ⟨out, rx, hw, hr, hn, hrx, u, hu, htr, rfl⟩ | ⟨hst, hcalls⟩ := exec_readCompleted_or hs he
  · have ht : u.tbl = builtTable := (transacted_tbl hu).trans (hs hr)
    have hbuf : u.rxbuf.wf = true := transacted_rxbuf hu ▸ hwf
    have hstatus := concluded_status_eq_pecMismatch_iff hw rx ht
    obtain ⟨hcs, -, -⟩ := hu
    refine ⟨fun hst => ⟨isRead_of_receivedCount_ne_zero hn, out, rx, htr, hcs, hstatus.mp hst,
      fun p hp => verdict_getLsbD i rx ht hp, fun k hk => stored_read hn hbuf (hrx ▸ hk)⟩,
      fun out' rx' p htr' hp hfails => ?_⟩
    obtain rfl : rx = rx' := readCalls_received_eq (List.append_cancel_left (htr.symm.trans htr'))
    exact hstatus.mpr ⟨p, hp, hfails⟩
  · exact ⟨fun hst' => absurd hst' hst, fun out rx _ htr => absurd htr (hcalls out rx)⟩

end Sys2Proof.Machine
end

-- Decoding and encoding give each other back (R50, R51, R58).
section
/-!
SUPPORT. The proofs that decoding and encoding agree: a command and a PEC back from their two bytes and
the bytes back from them, and the operation map on the image of a request (log 18).
-/

namespace Sys2Proof.Machine

/-- The two command bytes joined give the command back (R52). -/
theorem setWidth_cmdBytes (cmd : Cmd) :
    ((cmd.extractLsb' 8 3).setWidth 8 ++ cmd.extractLsb' 0 8).setWidth 11 = cmd := by
  have hlt : cmd.toNat < 2048 := cmd.isLt
  refine BitVec.eq_of_toNat_eq ?_
  rw [BitVec.toNat_setWidth, ← pecValue, pecValue_toNat, cmdHighByte_toNat, lowByte_toNat]
  omega

/-- Two bytes whose upper five bits are zero are the command bytes of the command they hold (R50). -/
theorem cmdBytes_setWidth {b0 b1 : Byte} (h : b0.toNat < 8) :
    cmdBytes ((b0 ++ b1).setWidth 11) = [b0, b1] := by
  have hcmd : ((b0 ++ b1).setWidth 11).toNat = b0.toNat * 256 + b1.toNat := by
    have := b1.isLt
    rw [BitVec.toNat_setWidth, ← pecValue, pecValue_toNat]
    omega
  have hhigh : (((b0 ++ b1).setWidth 11).extractLsb' 8 3).setWidth 8 = b0 := by
    refine BitVec.eq_of_toNat_eq ?_
    rw [cmdHighByte_toNat, hcmd]
    omega
  have hlow : ((b0 ++ b1).setWidth 11).extractLsb' 0 8 = b1 := by
    refine BitVec.eq_of_toNat_eq ?_
    rw [lowByte_toNat, hcmd]
    omega
  rw [cmdBytes, hhigh, hlow]

/-- The wire bytes of two received bytes' value are those two bytes (R53). -/
theorem pecBytes_pecValue (b0 b1 : Byte) : pecBytes (pecValue b0 b1) = [b0, b1] := by
  have hhigh : (pecValue b0 b1).extractLsb' 8 8 = b0 := by
    refine BitVec.eq_of_toNat_eq ?_
    rw [bitsAboveLowByte_toNat (by decide), pecValue_toNat]
    omega
  have hlow : (pecValue b0 b1).extractLsb' 0 8 = b1 := by
    refine BitVec.eq_of_toNat_eq ?_
    rw [lowByte_toNat, pecValue_toNat]
    omega
  rw [pecBytes, hhigh, hlow]

/-- A PEC is twice its remainder as a number (R76). -/
theorem pecOf_toNat (r : Rem) : (pecOf r).toNat = 2 * r.toNat := by
  have := r.isLt
  rw [pecOf, BitVec.toNat_shiftLeft, BitVec.toNat_setWidth, Nat.shiftLeft_eq]
  omega

/-- A value with bit 0 zero is the PEC of its bits 15:1. -/
theorem pecOf_extractLsb' {p : Pec} (h : p.getLsbD 0 = false) : pecOf (p.extractLsb' 1 15) = p := by
  have heven : p.toNat % 2 = 0 := by simpa [BitVec.getLsbD] using h
  refine BitVec.eq_of_toNat_eq ?_
  rw [pecOf_toNat, BitVec.extractLsb'_toNat, Nat.shiftRight_eq_div_pow]
  omega

/-- The wire bytes of the remainder taken from two bytes are those bytes, where the lower one is even. -/
theorem pecBytes_pecOf_extractLsb' {b0 b1 : Byte} (h : b1.getLsbD 0 = false) :
    pecBytes (pecOf ((b0 ++ b1).extractLsb' 1 15)) = [b0, b1] := by
  have hbit : (pecValue b0 b1).getLsbD 0 = false := (pecValue_getLsbD_zero b0 b1).trans h
  rw [← pecValue, pecOf_extractLsb' hbit, pecBytes_pecValue]

/-- The remainder read off the two wire bytes of a PEC is its remainder (R50, R51). -/
theorem extractLsb'_pecBytes_pecOf (r : Rem) :
    ((pecOf r).extractLsb' 8 8 ++ (pecOf r).extractLsb' 0 8).extractLsb' 1 15 = r := by
  rw [← pecValue, pecValue_pecBytes, pecOf_remainder]

end Sys2Proof.Machine

namespace Sys2Proof

open Machine

/-- Decoding the image of a request is the operation map on its registers (R58, log 18). -/
theorem decodeReq_requestImage (op : OpCode) (cmd : Cmd) (len : Len) (ndev : NDev) :
    decodeReq (requestImage op cmd len ndev) = .ok (decodeRequest op cmd len ndev) := by
  have hop : ¬ 8 ≤ (op.setWidth 8).toNat := by
    have := op.isLt
    rw [BitVec.toNat_setWidth]
    omega
  have hcmd : ¬ 8 ≤ ((cmd.extractLsb' 8 3).setWidth 8).toNat := by
    have : cmd.toNat < 2048 := cmd.isLt
    rw [cmdHighByte_toNat]
    omega
  have hndev : ¬ 16 ≤ (ndev.setWidth 8).toNat := by
    have := ndev.isLt
    rw [BitVec.toNat_setWidth]
    omega
  simp only [decodeReq, requestImage, if_neg hop, if_neg hcmd, if_neg hndev, setWidth_cmdBytes,
    BitVec.setWidth_setWidth_of_le _ (show 3 ≤ 8 by decide),
    BitVec.setWidth_setWidth_of_le _ (show 4 ≤ 8 by decide), BitVec.setWidth_eq]

/-- Decoding the header segment an instruction `WIRE.H` is written as (R50). -/
theorem decodeH_encode (cmd : Cmd) (pec : Rem) :
    decodeH (encode (.wireH cmd pec)) = .ok (.wireH cmd pec) := by
  have hcmd : ¬ 8 ≤ ((cmd.extractLsb' 8 3).setWidth 8).toNat := by
    have : cmd.toNat < 2048 := cmd.isLt
    rw [cmdHighByte_toNat]
    omega
  simp only [encode, cmdBytes, pecBytes, List.cons_append, List.nil_append, decodeH, if_neg hcmd,
    Laws.RowMatch.low_byte_even, Bool.false_eq_true, if_false, setWidth_cmdBytes,
    extractLsb'_pecBytes_pecOf]

/-- Decoding the data segment an instruction `WIRE.D` is written as (R51). -/
theorem decodeD_encode (payload : List Byte) (pec : Rem) :
    decodeD (encode (.wireD payload pec)) = .ok (.wireD payload pec) := by
  simp only [encode, pecBytes, decodeD, List.reverse_append, List.reverse_cons, List.reverse_nil,
    List.nil_append, List.cons_append, Laws.RowMatch.low_byte_even, Bool.false_eq_true, if_false,
    List.reverse_reverse, extractLsb'_pecBytes_pecOf]

/-- Settles O1: a request is decoded by the operation map at its own `OP` value, a wire segment by the
lemma of its format. -/
theorem decodeEncodeAgree : Obligations.DecodeEncodeAgree := by
  intro i
  cases i with
  | wireH cmd pec => exact decodeH_encode cmd pec
  | wireD payload pec => exact decodeD_encode payload pec
  | init => exact decodeReq_requestImage 0 0 0 0
  | pec15 len => exact decodeReq_requestImage 1 0 len 0
  | run cmd => exact decodeReq_requestImage 2 cmd 0 0
  | rdcmd cmd len => exact decodeReq_requestImage 3 cmd len 0
  | wrcmd cmd len => exact decodeReq_requestImage 4 cmd len 0
  | rdchain cmd len ndev => exact decodeReq_requestImage 5 cmd len ndev
  | wrchain cmd len ndev => exact decodeReq_requestImage 6 cmd len ndev
  | reserved7 => exact decodeReq_requestImage 7 0 0 0

/-- What the header decoder accepts (R50): four bytes, the first below 8 and the last even. -/
theorem decodeH_eq_ok {bytes : List Byte} {i : Instr} (h : decodeH bytes = .ok i) :
    ∃ b0 b1 b2 b3 : Byte, bytes = [b0, b1, b2, b3] ∧ b0.toNat < 8 ∧ b3.getLsbD 0 = false ∧
      i = .wireH ((b0 ++ b1).setWidth 11) ((b2 ++ b3).extractLsb' 1 15) := by
  unfold decodeH at h
  split at h
  case h_1 b0 b1 b2 b3 =>
    split at h
    · cases h
    case isFalse hb0 =>
      split at h
      · cases h
      case isFalse hb3 =>
        cases h
        exact ⟨b0, b1, b2, b3, rfl, Nat.not_le.mp hb0, Bool.eq_false_of_not_eq_true hb3, rfl⟩
  case h_2 => cases h

/-- What the data decoder accepts (R51): a payload and two bytes, the last of them even. -/
theorem decodeD_eq_ok {bytes : List Byte} {i : Instr} (h : decodeD bytes = .ok i) :
    ∃ (payload : List Byte) (hi lo : Byte), bytes = payload ++ [hi, lo] ∧ lo.getLsbD 0 = false ∧
      i = .wireD payload ((hi ++ lo).extractLsb' 1 15) := by
  unfold decodeD at h
  split at h
  case h_1 lo hi back hrev =>
    split at h
    · cases h
    case isFalse hlo =>
      cases h
      refine ⟨back.reverse, hi, lo, ?_, Bool.eq_false_of_not_eq_true hlo, rfl⟩
      simpa using congrArg List.reverse hrev
  case h_2 => cases h

/-- Settles O2: what a wire decoder accepts holds its command and its PEC in whole bytes, and those
bytes come back. -/
theorem encodeDecodeWireAgree : Obligations.EncodeDecodeWireAgree := by
  intro f bytes i hf h
  cases f with
  | req => exact absurd rfl hf
  | h =>
    obtain ⟨b0, b1, b2, b3, rfl, hb0, hb3, rfl⟩ := decodeH_eq_ok h
    refine ⟨rfl, ?_⟩
    rw [encode, cmdBytes_setWidth hb0, pecBytes_pecOf_extractLsb' hb3]
    rfl
  | d =>
    obtain ⟨payload, hi, lo, rfl, hlo, rfl⟩ := decodeD_eq_ok h
    exact ⟨rfl, by rw [encode, pecBytes_pecOf_extractLsb' hlo]⟩

/-- Settles O3: at each `OP` value the operation map is evaluated by its definition. -/
theorem operationMap : Obligations.OperationMap := fun cmd len ndev =>
  ⟨decodeReq_requestImage 0 cmd len ndev, decodeReq_requestImage 1 cmd len ndev,
    decodeReq_requestImage 2 cmd len ndev, decodeReq_requestImage 3 cmd len ndev,
    decodeReq_requestImage 4 cmd len ndev, decodeReq_requestImage 5 cmd len ndev,
    decodeReq_requestImage 6 cmd len ndev, decodeReq_requestImage 7 cmd len ndev⟩

/-- Settles O4: seven closed words, decoded by evaluation. -/
theorem handwrittenWordsDecode : Obligations.HandwrittenWordsDecode := by
  unfold Obligations.HandwrittenWordsDecode
  decide

end Sys2Proof
end

-- The laws of PEC15 (40_pec15.md section 6).
section
/-!
SUPPORT. The proofs of the laws of PEC15. The one idea: `STEP1` is linear over exclusive-or and loses
nothing, so `UPD` with the built table is eight `STEP1` of the register with the byte added to its top.
-/

namespace Sys2Proof.Machine

/-- `STEP1` is linear over exclusive-or (R71). -/
theorem step1_xor (a b : Rem) : step1 (a ^^^ b) = step1 a ^^^ step1 b := by
  unfold step1
  rw [BitVec.getLsbD_xor, BitVec.shiftLeft_xor_distrib]
  cases a.getLsbD 14 <;> cases b.getLsbD 14
  case false.false => rfl
  case false.true => exact BitVec.xor_assoc ..
  case true.false =>
    change a <<< 1 ^^^ b <<< 1 ^^^ poly = a <<< 1 ^^^ poly ^^^ b <<< 1
    ac_rfl
  case true.true =>
    calc a <<< 1 ^^^ b <<< 1 = a <<< 1 ^^^ b <<< 1 ^^^ (poly ^^^ poly) := by simp
      _ = a <<< 1 ^^^ poly ^^^ (b <<< 1 ^^^ poly) := by ac_rfl

theorem stepTimes_xor : ∀ (n : Nat) (a b : Rem),
    stepTimes n (a ^^^ b) = stepTimes n a ^^^ stepTimes n b
  | 0, _, _ => rfl
  | n + 1, a, b => by rw [stepTimes, step1_xor, stepTimes_xor n]; rfl

/-- `STEP1` loses nothing: `POLY` is odd and a shifted register is even. -/
theorem eq_zero_of_step1_eq_zero {r : Rem} (h : step1 r = 0) : r = 0 := by
  unfold step1 at h
  split at h
  case isTrue htop =>
    have hbit := congrArg (fun v => v.getLsbD 0) h
    simp [poly] at hbit
  case isFalse htop =>
    refine BitVec.eq_of_getLsbD_eq fun k hk => ?_
    obtain rfl | hk' := Nat.eq_or_lt_of_le (Nat.le_of_lt_succ hk)
    · simpa using htop
    · have hbit := congrArg (fun v => v.getLsbD (k + 1)) h
      simpa [show k + 1 < 15 by omega, BitVec.getLsbD_eq_getElem hk] using hbit

theorem eq_zero_of_stepTimes_eq_zero : ∀ (n : Nat) {r : Rem}, stepTimes n r = 0 → r = 0
  | 0, _, h => h
  | n + 1, _, h => eq_zero_of_step1_eq_zero (eq_zero_of_stepTimes_eq_zero n h)

/-- Steps of `STEP1` keep different registers different. -/
theorem stepTimes_injective (n : Nat) {a b : Rem} (h : stepTimes n a = stepTimes n b) : a = b := by
  have hzero : stepTimes n (a ^^^ b) = 0 := by
    rw [stepTimes_xor, h]
    exact BitVec.xor_self
  exact BitVec.xor_eq_zero_iff.mp (eq_zero_of_stepTimes_eq_zero n hzero)

/-- While no bit is shifted out, `STEP1` is a shift. -/
theorem stepTimes_eq_shiftLeft : ∀ (n : Nat) {r : Rem}, r.toNat * 2 ^ n < 2 ^ 15 →
    stepTimes n r = r <<< n
  | 0, r, _ => (BitVec.shiftLeft_zero r).symm
  | n + 1, r, h => by
    have hdouble : r.toNat * 2 * 2 ^ n < 2 ^ 15 := by
      rwa [Nat.mul_assoc, ← Nat.pow_add_one']
    have hlt : r.toNat * 2 < 2 ^ 15 :=
      Nat.lt_of_le_of_lt (Nat.le_mul_of_pos_right _ (Nat.two_pow_pos n)) hdouble
    have hstep : step1 r = r <<< 1 := if_neg (by
      simp only [BitVec.getLsbD, Bool.not_eq_true]
      exact Nat.testBit_lt_two_pow (by omega))
    have hnat : (r <<< 1).toNat = r.toNat * 2 := by
      rw [BitVec.toNat_shiftLeft, Nat.shiftLeft_eq, Nat.pow_one, Nat.mod_eq_of_lt hlt]
    rw [stepTimes, hstep, stepTimes_eq_shiftLeft n (hnat ▸ hdouble), Nat.add_comm n,
      BitVec.shiftLeft_add]

theorem entryStart_xor (a b : Byte) : entryStart (a ^^^ b) = entryStart a ^^^ entryStart b := by
  rw [entryStart, BitVec.setWidth_xor, BitVec.shiftLeft_xor_distrib]
  rfl

theorem entryStart_toNat (b : Byte) : (entryStart b).toNat = b.toNat * 128 := by
  have := b.isLt
  rw [entryStart, BitVec.toNat_shiftLeft, BitVec.toNat_setWidth, Nat.shiftLeft_eq]
  omega

theorem entryStart_injective {a b : Byte} (h : entryStart a = entryStart b) : a = b := by
  have hnat := congrArg BitVec.toNat h
  rw [entryStart_toNat, entryStart_toNat] at hnat
  exact BitVec.eq_of_toNat_eq (by omega)

/-- The low seven bits of the register, which no table address sees (R73). -/
def lowSeven (r : Rem) : Rem := (r.setWidth 7).setWidth 15

theorem lowSeven_toNat (r : Rem) : (lowSeven r).toNat = r.toNat % 128 := by
  rw [lowSeven, BitVec.toNat_setWidth, BitVec.toNat_setWidth]
  omega

/-- A register with a byte added to its top is the table address at its top and the low seven bits. -/
theorem xor_entryStart (r : Rem) (b : Byte) :
    r ^^^ entryStart b = lowSeven r ^^^ entryStart (updAddr r b) := by
  have hsplit : r = lowSeven r ^^^ entryStart ((r >>> 7).setWidth 8) := by
    refine BitVec.eq_of_getLsbD_eq fun k hk => ?_
    by_cases hk7 : k < 7
    · simp [lowSeven, entryStart, hk, hk7]
    · simp [lowSeven, entryStart, hk, hk7, show 7 + (k - 7) = k by omega, show k - 7 < 8 by omega]
  rw [updAddr, entryStart_xor, ← BitVec.xor_assoc, ← hsplit]

/-- `UPD` with the built table is eight steps from the register with the byte added to its top. -/
theorem upd_builtTable (r : Rem) (b : Byte) :
    upd builtTable r b = stepTimes stepsPerEntry (r ^^^ entryStart b) := by
  have hsmall : (lowSeven r).toNat * 2 ^ stepsPerEntry < 2 ^ 15 := by
    rw [lowSeven_toNat, stepsPerEntry]
    omega
  have hshift : lowSeven r <<< stepsPerEntry = r <<< 8 := by
    refine BitVec.eq_of_toNat_eq ?_
    rw [BitVec.toNat_shiftLeft, BitVec.toNat_shiftLeft, lowSeven_toNat, stepsPerEntry,
      Nat.shiftLeft_eq, Nat.shiftLeft_eq]
    omega
  rw [xor_entryStart, stepTimes_xor, stepTimes_eq_shiftLeft _ hsmall, hshift, upd,
    lookup_builtTable, tableEntry]

/-- `UPD` with the built table is linear over exclusive-or. -/
theorem upd_builtTable_xor (r r' : Rem) (b b' : Byte) :
    upd builtTable (r ^^^ r') (b ^^^ b') = upd builtTable r b ^^^ upd builtTable r' b' := by
  simp only [upd_builtTable, ← stepTimes_xor, entryStart_xor]
  congr 1
  ac_rfl

/-- Different registers stay different under the same byte. -/
theorem upd_builtTable_left_injective {r r' : Rem} {b : Byte}
    (h : upd builtTable r b = upd builtTable r' b) : r = r' := by
  rw [upd_builtTable, upd_builtTable] at h
  exact (BitVec.xor_left_inj _).mp (stepTimes_injective _ h)

/-- Different bytes lead the same register to different ones. -/
theorem upd_builtTable_right_injective {r : Rem} {b b' : Byte}
    (h : upd builtTable r b = upd builtTable r b') : b = b' := by
  rw [upd_builtTable, upd_builtTable] at h
  exact entryStart_injective ((BitVec.xor_right_inj _).mp (stepTimes_injective _ h))

/-- Different registers stay different under the same bytes. -/
theorem foldl_upd_builtTable_injective : ∀ (d : List Byte) {r r' : Rem},
    d.foldl (upd builtTable) r = d.foldl (upd builtTable) r' → r = r'
  | [], _, _, h => h
  | _ :: d, _, _, h => upd_builtTable_left_injective (foldl_upd_builtTable_injective d h)

/-- Messages that differ in one byte leave different remainders. -/
theorem foldl_upd_builtTable_set_ne : ∀ {d : List Byte} {j : Nat} {v : Byte} (r : Rem),
    j < d.length → v ≠ d.getD j 0 →
    (d.set j v).foldl (upd builtTable) r ≠ d.foldl (upd builtTable) r
  | _ :: d, 0, _, _, _, hv => fun h =>
    hv (upd_builtTable_right_injective (foldl_upd_builtTable_injective d h))
  | x :: _, _ + 1, _, r, hj, hv =>
    foldl_upd_builtTable_set_ne (upd builtTable r x) (Nat.lt_of_succ_lt_succ hj) hv

/-- The remainders of two messages of one length add up to that of their exclusive-or. -/
theorem foldl_upd_builtTable_zipWith_xor : ∀ {a b : List Byte} (r r' : Rem), a.length = b.length →
    (List.zipWith (· ^^^ ·) a b).foldl (upd builtTable) (r ^^^ r') =
      a.foldl (upd builtTable) r ^^^ b.foldl (upd builtTable) r'
  | [], [], _, _, _ => rfl
  | x :: a, y :: b, r, r', h => by
    simp only [List.zipWith_cons_cons, List.foldl_cons, upd_builtTable_xor]
    exact foldl_upd_builtTable_zipWith_xor _ _ (Nat.succ.inj h)

theorem pecOf_xor (a b : Rem) : pecOf (a ^^^ b) = pecOf a ^^^ pecOf b := by
  rw [pecOf, BitVec.setWidth_xor, BitVec.shiftLeft_xor_distrib]
  rfl

theorem crcRem_eq_of_pec15_eq {t : Table} {d d' : List Byte} (h : pec15 t d = pec15 t d') :
    crcRem t d = crcRem t d' :=
  pecOf_injective h

/-! ### The bit-serial CRC -/

/-- A message bit does not meddle with what is added to the register. -/
theorem bitStep_xor (r r' : Rem) (x : Bool) : bitStep (r ^^^ r') x = step1 r ^^^ bitStep r' x := by
  have hbit : ∀ v : Rem, bitStep v x = step1 v ^^^ if x then poly else 0 := by
    intro v
    unfold bitStep step1
    cases x <;> cases v.getLsbD 14 <;> simp
  rw [hbit, hbit, step1_xor, BitVec.xor_assoc]

theorem foldl_bitStep_xor (b : Byte) : ∀ (ks : List Nat) (r r' : Rem),
    ks.foldl (fun r k => bitStep r (b.getLsbD k)) (r ^^^ r') =
      stepTimes ks.length r ^^^ ks.foldl (fun r k => bitStep r (b.getLsbD k)) r'
  | [], _, _ => rfl
  | _ :: ks, _, _ => by
    rw [List.foldl_cons, bitStep_xor, foldl_bitStep_xor b ks]
    rfl

/-- From register zero the eight bits of a byte lead to its table entry. -/
theorem bitByte_zero : ∀ b : Byte, bitByte 0 b = tableEntry b := by
  decide +kernel

/-- One byte through the built table is its eight bits one by one (R78). -/
theorem bitByte_eq_upd (r : Rem) (b : Byte) : bitByte r b = upd builtTable r b :=
  calc bitByte r b = bitByte (r ^^^ 0) b := congrArg (bitByte · b) BitVec.xor_zero.symm
    _ = stepTimes 8 r ^^^ bitByte 0 b := foldl_bitStep_xor b _ r 0
    _ = stepTimes 8 r ^^^ tableEntry b := by rw [bitByte_zero]
    _ = upd builtTable r b := by rw [upd_builtTable, stepTimes_xor]; rfl

/-- Settles O8: both fold over the bytes, and `bitByte_eq_upd` says that they do so with one function. -/
theorem pec15IsBitSerialCrc : Obligations.Pec15IsBitSerialCrc := by
  intro s
  have hstep : bitByte = upd builtTable := funext fun r => funext (bitByte_eq_upd r)
  rw [pec15, crcRem, bit15, hstep]

/-- Settles O9: an entry is a number of steps from a start, and both are linear. -/
theorem builtTableIsLinear : Obligations.BuiltTableIsLinear := by
  intro a b
  simp only [lookup_builtTable, tableEntry, entryStart_xor, stepTimes_xor]

/-- Settles O10: neither the steps nor the start of an entry loses anything. -/
theorem tableEntriesDiffer : Obligations.TableEntriesDiffer := by
  intro a b h
  rw [lookup_builtTable, lookup_builtTable] at h
  exact entryStart_injective (stepTimes_injective _ h)

/-- Exclusive-or with zero bytes changes nothing. -/
theorem zipWith_xor_replicate_zero : ∀ d : List Byte,
    List.zipWith (· ^^^ ·) d (List.replicate d.length 0) = d
  | [] => rfl
  | x :: d => by
    rw [List.length_cons, List.replicate_succ, List.zipWith_cons_cons, zipWith_xor_replicate_zero d]
    exact congrArg (· :: d) (BitVec.xor_zero ..)

/-- Settles O11: `foldl_upd_builtTable_zipWith_xor` twice, with the seed as the exclusive-or of three
seeds and the zero bytes as the third message. -/
theorem pec15IsAffine : Obligations.Pec15IsAffine := by
  intro a b hlen
  have hzip : (List.zipWith (· ^^^ ·) a b).length = a.length := by simp [hlen]
  have hseeds : seed = seed ^^^ seed ^^^ seed := by decide
  have hrem : crcRem builtTable (List.zipWith (· ^^^ ·) a b) =
      crcRem builtTable a ^^^ crcRem builtTable b ^^^
        crcRem builtTable (List.replicate a.length 0) := by
    simp only [crcRem]
    conv_lhs => rw [← zipWith_xor_replicate_zero (List.zipWith (· ^^^ ·) a b), hzip, hseeds]
    rw [foldl_upd_builtTable_zipWith_xor _ _ (by simp [hlen]),
      foldl_upd_builtTable_zipWith_xor _ _ hlen]
  simp only [pec15, hrem, pecOf_xor]

/-- Zero bytes never bring the register to zero. -/
theorem crcRem_builtTable_replicate_zero_ne_zero (n : Nat) :
    crcRem builtTable (List.replicate n 0) ≠ 0 := by
  have hstep : upd builtTable 0 0 = 0 := by decide +kernel
  have hzero : ∀ n, (List.replicate n (0 : Byte)).foldl (upd builtTable) 0 = 0 := by
    intro n
    induction n with
    | zero => rfl
    | succ n ih => rwa [List.replicate_succ, List.foldl_cons, hstep]
  intro h
  have hseed : seed = 0 := foldl_upd_builtTable_injective _ (h.trans (hzero n).symm)
  exact absurd hseed (by decide)

/-- Settles O12: zero bytes leave the seed nonzero, and the all-ones PEC has bit 0 set. -/
theorem stuckBusNeverMatches : Obligations.StuckBusNeverMatches := by
  refine fun n => ⟨fun h => ?_, pec15_ne_pecValue_of_bit_zero _ _ (by decide)⟩
  exact crcRem_builtTable_replicate_zero_ne_zero n (pecOf_injective (h.trans (by decide)))

theorem tableEntry_zero : tableEntry 0 = 0 := by decide

/-- The high wire byte of a register's PEC takes the register to the table's entry 0, which is zero. -/
theorem upd_highByte (r : Rem) :
    upd builtTable r ((pecOf r).extractLsb' 8 8) = r <<< 8 := by
  have haddr : updAddr r ((pecOf r).extractLsb' 8 8) = 0 := by
    refine BitVec.eq_of_getLsbD_eq fun k hk => ?_
    simp [updAddr, pecOf, hk, show 8 + k - 1 = 7 + k by omega, show 8 + k < 16 by omega]
  rw [upd, haddr, lookup_builtTable, tableEntry_zero]
  exact BitVec.xor_zero

/-- The low wire byte of a register's PEC takes what is left of the register to zero. -/
theorem upd_lowByte (r : Rem) :
    upd builtTable (r <<< 8) ((pecOf r).extractLsb' 0 8) = 0 := by
  have haddr : updAddr (r <<< 8) ((pecOf r).extractLsb' 0 8) = 0 := by
    refine BitVec.eq_of_getLsbD_eq fun k hk => ?_
    cases k with
    | zero => simp [updAddr, pecOf]
    | succ k =>
      simp [updAddr, pecOf, hk, show 7 + (k + 1) = 8 + k by omega, show 8 + k < 15 by omega,
        show k + 1 < 16 by omega, BitVec.getLsbD_eq_getElem (show k < 15 by omega)]
  have hshift : r <<< 8 <<< 8 = 0 := by
    rw [← BitVec.shiftLeft_add]
    exact BitVec.shiftLeft_eq_zero (by decide)
  rw [upd, haddr, lookup_builtTable, tableEntry_zero, hshift]
  rfl

/-- Settles O13: behind the payload the two bytes of its PEC shift the register out. -/
theorem segmentResidueIsZero : Obligations.SegmentResidueIsZero := by
  intro d
  have hrem : crcRem builtTable (seg builtTable d) = 0 := by
    rw [seg, pecBytes, ← List.singleton_append, ← List.append_assoc, crcRem_concat, crcRem_concat,
      pec15, upd_highByte, upd_lowByte]
  rw [pec15, hrem]
  rfl

/-- A changed bit changes its byte. -/
theorem xor_bit_ne {b : Nat} (hb : b < 8) (v : Byte) : v ^^^ 1#8 <<< b ≠ v := by
  intro h
  have hzero : 1#8 <<< b = 0#8 := by simpa using congrArg (v ^^^ ·) h
  have hbit := congrArg (fun v => v.getLsbD b) hzero
  simp [hb] at hbit

/-- Settles O14: the changed byte leads to another register, which the bytes behind it keep apart. -/
theorem singleBitChangeChangesPec : Obligations.SingleBitChangeChangesPec := by
  intro d j b hj hb h
  exact foldl_upd_builtTable_set_ne seed hj (xor_bit_ne hb _) (crcRem_eq_of_pec15_eq h)

/-- The eight first header bytes lead to registers with different low seven bits. -/
theorem lowSeven_upd_seed_injective : ∀ a b : BitVec 3,
    lowSeven (upd builtTable seed (a.setWidth 8)) = lowSeven (upd builtTable seed (b.setWidth 8)) →
      a = b := by
  decide +kernel

theorem lowSeven_xor_entryStart (r : Rem) (b : Byte) : lowSeven (r ^^^ entryStart b) = lowSeven r := by
  refine BitVec.eq_of_getLsbD_eq fun k hk => ?_
  by_cases hk7 : k < 7
  · simp [lowSeven, entryStart, hk7]
  · simp [lowSeven, hk7]

/-- Settles O15: the second byte touches bits 14:7 alone, so the low seven bits of the register tell the
first byte, and from one register two second bytes lead to two. -/
theorem headerPecsDiffer : Obligations.HeaderPecsDiffer := by
  intro c c' h
  have hrem : upd builtTable (upd builtTable seed _) _ = upd builtTable (upd builtTable seed _) _ :=
    crcRem_eq_of_pec15_eq h
  have hsum := hrem
  rw [upd_builtTable (upd builtTable seed _), upd_builtTable (upd builtTable seed _)] at hsum
  have hlow := congrArg lowSeven (stepTimes_injective _ hsum)
  rw [lowSeven_xor_entryStart, lowSeven_xor_entryStart] at hlow
  have hhighBits := lowSeven_upd_seed_injective _ _ hlow
  rw [hhighBits] at hrem
  have hlowByte := upd_builtTable_right_injective hrem
  rw [← setWidth_cmdBytes c, hhighBits, hlowByte, setWidth_cmdBytes c']

/-- Settles O16: a PEC is its remainder shifted left by one. -/
theorem pecShape : Obligations.PecShape :=
  ⟨fun _ _ => ⟨pecOf_bit_zero _, pecOf_remainder _, pecOf_toNat _⟩, by decide +kernel⟩

end Sys2Proof.Machine
end

-- What an instruction leaves unchanged, and what it can end in (R27, R59, R72, R75, R111, R119).
section
/-!
SUPPORT. The proofs about single operations: what each can write, with which status it can end, and the
operations that make no transport call in full. `FramerEnd` says once what a framer operation that goes
on has done.
-/

namespace Sys2Proof.Machine

/-- Between `s` and `u` one whole transaction was made (R92): a send that came back with `failure`, or a
send and a receive of `n` bytes answered with `a`. -/
def ranTransaction (s u : State) (n : Nat) (failure : Option TransportReport) (a : Answer) : Prop :=
  ∃ out, u.trace = s.trace ++ [.select, .transferOut out failure, .deselect] ∨
    n ≠ 0 ∧ u.trace = s.trace ++ [.select, .transferOut out none, .transferIn n a, .deselect]

/-- What a framer operation that goes on has made of `s` (R111, R118): it was rejected, a transfer
failed, or its transfers succeeded and as many bytes as it asks for came in. -/
inductive FramerEnd (i : Instr) (s : State) : State → Prop
  | rejected (hill : i.wellFormed s.config = false) : FramerEnd i s (s.endOffBus .rejected)
  | failed {u : State} {e : TransportReport} (hlegal : i.wellFormed s.config = true)
      (hu : transacted s u) (hcalls : ranTransaction s u (receivedCount i) (some e) (.fail e)) :
      FramerEnd i s ((u.spoilReceived (receivedCount i)).raise (.transportErr e))
  | done {u : State} {rx : List Byte} (hlegal : i.wellFormed s.config = true)
      (hu : transacted s u) (hrx : rx.length = receivedCount i)
      (hcalls : ranTransaction s u (receivedCount i) none (.ok rx)) :
      FramerEnd i s (concluded i rx u)

theorem framerEnd_of_exec {i : Instr} (h : isFramer i = true) {s t : State}
    (he : exec i s = .next t) : FramerEnd i s t := by
  obtain ⟨hill, hx⟩ | ⟨-, -, hx⟩ | ⟨hlegal, -, out, u, -, -, hu, hend⟩ := exec_framer_cases h s
  · rw [hx] at he
    cases he
    exact .rejected hill
  · rw [hx] at he
    cases he
  · obtain ⟨e, htr, hx⟩ | ⟨hn, e, htr, hx⟩ | ⟨hn, htr, hx⟩ | ⟨hn, rx, hrx, htr, hx⟩ := hend <;>
      rw [hx] at he <;> cases he
    · exact .failed hlegal hu ⟨out, .inl htr⟩
    · exact .failed hlegal hu ⟨out, .inr ⟨hn, htr⟩⟩
    · exact .done hlegal hu hn.symm ⟨out, .inl htr⟩
    · exact .done hlegal hu hrx ⟨out, .inr ⟨hn, htr⟩⟩

/-- `t` differs from `s` in what a framer operation may write alone (R119). -/
def framerWrites (s t : State) : Prop :=
  t = { s with
    rxbuf := t.rxbuf, frame := t.frame, rem := t.rem, status := t.status, errmask := t.errmask
    terr := t.terr, cs := t.cs, seq := t.seq, answers := t.answers, trace := t.trace
    draws := t.draws }

/-- `t` differs from `s` in what an operation without a transport call may write alone (R72, R75). -/
def engineWrites (s t : State) : Prop :=
  t = { s with
    tbl := t.tbl, tblReady := t.tblReady, rem := t.rem, status := t.status, terr := t.terr
    pecOut := t.pecOut, draws := t.draws }

theorem framerWrites_trans {s t u : State} (h : framerWrites s t) (h' : framerWrites t u) :
    framerWrites s u := by
  unfold framerWrites at *
  rw [h'] at *
  rw [h]

theorem framerWrites_of_transacted {s u : State} (h : transacted s u) : framerWrites s u := by
  obtain ⟨-, -, hu⟩ := h
  unfold framerWrites
  rw [hu]

theorem framerWrites_fail (u : State) (n : Nat) (e : TransportReport) :
    framerWrites u ((u.spoilReceived n).raise (.transportErr e)) := by
  unfold State.spoilReceived
  split <;> rfl

theorem exec_framerWrites {i : Instr} (h : isFramer i = true) {s t : State}
    (he : exec i s = .next t) : framerWrites s t := by
  cases framerEnd_of_exec h he with
  | rejected _ => rfl
  | failed _ hu _ => exact framerWrites_trans (framerWrites_of_transacted hu) (framerWrites_fail ..)
  | done _ hu _ _ => exact framerWrites_trans (framerWrites_of_transacted hu) rfl

theorem exec_engineWrites {i : Instr} (h : isFramer i = false) {s t : State}
    (he : exec i s = .next t) : engineWrites s t := by
  obtain ⟨-, rfl⟩ | ⟨_, -, rfl⟩ | ⟨_, -, -, rfl⟩ | ⟨-, rfl⟩ := exec_nonframer_cases h he <;> rfl

/-- No instruction writes what the host owns: `TXBUF` as a whole, the registers, the parameters and the
list of requests (R119). -/
theorem exec_hostOwned {i : Instr} {s t : State} (he : exec i s = .next t) :
    t.txbuf = s.txbuf ∧ t.config = s.config ∧ hostOwnedKept s t := by
  cases hi : isFramer i with
  | true =>
    rw [exec_framerWrites hi he]
    exact ⟨rfl, rfl, rfl, rfl, rfl, rfl, fun _ => rfl, rfl, rfl⟩
  | false =>
    rw [exec_engineWrites hi he]
    exact ⟨rfl, rfl, rfl, rfl, rfl, rfl, fun _ => rfl, rfl, rfl⟩

theorem framerWrites_tableKept {s t : State} (h : framerWrites s t) : tableKept s t := by
  rw [h]
  exact ⟨rfl, rfl⟩

theorem framerWrites_pecOut {s t : State} (h : framerWrites s t) : t.pecOut = s.pecOut := by
  rw [h]

/-- Settles O39: the host's part of `exec_hostOwned`. -/
theorem hostOwnedStateIsNeverWritten : Obligations.HostOwnedStateIsNeverWritten := by
  intro i s t he
  obtain ⟨-, -, hkept⟩ := exec_hostOwned he
  exact hkept

/-- Settles O38: a framer operation keeps the table, and of the others only `INIT` writes it, which
makes it ready. -/
theorem onlyInitWritesTheTable : Obligations.OnlyInitWritesTheTable := by
  intro i s t he
  cases hi : isFramer i with
  | true =>
    obtain ⟨htbl, hready⟩ := framerWrites_tableKept (exec_framerWrites hi he)
    exact ⟨fun _ => ⟨htbl, hready⟩, hready.trans⟩
  | false =>
    obtain ⟨rfl, rfl⟩ | ⟨_, -, rfl⟩ | ⟨_, -, -, rfl⟩ | ⟨-, rfl⟩ := exec_nonframer_cases hi he
    · exact ⟨fun hne => absurd rfl hne, fun _ => rfl⟩
    · exact ⟨fun _ => ⟨rfl, rfl⟩, id⟩
    · exact ⟨fun _ => ⟨rfl, rfl⟩, id⟩
    · exact ⟨fun _ => ⟨rfl, rfl⟩, id⟩

/-- Settles O40: only `PEC15` writes `PEC_OUT`, and what it writes is a computed PEC (R76). -/
theorem onlyPec15WritesPecOut : Obligations.OnlyPec15WritesPecOut := by
  intro i s t he
  cases hi : isFramer i with
  | true =>
    have hkept := framerWrites_pecOut (exec_framerWrites hi he)
    exact ⟨fun _ => hkept, fun hne => absurd hkept hne⟩
  | false =>
    obtain ⟨-, rfl⟩ | ⟨_, -, rfl⟩ | ⟨len, hpec, -, rfl⟩ | ⟨-, rfl⟩ := exec_nonframer_cases hi he
    · exact ⟨fun _ => rfl, fun hne => absurd rfl hne⟩
    · exact ⟨fun _ => rfl, fun hne => absurd rfl hne⟩
    · exact ⟨fun hne => absurd hpec (hne len), fun _ => pecOf_bit_zero _⟩
    · exact ⟨fun _ => rfl, fun hne => absurd rfl hne⟩

/-- A framer operation whose status is `REJECTED` has written nothing but `STATUS` and `TERR` (R114). -/
theorem eq_endOffBus_of_rejected {i : Instr} (h : isFramer i = true) {s t : State}
    (he : exec i s = .next t) (hst : t.status = .rejected) : t = s.endOffBus .rejected := by
  cases framerEnd_of_exec h he with
  | rejected _ => rfl
  | failed _ _ _ => cases hst
  | done _ _ _ _ => exact absurd hst (statusOfMask_verified _).1

theorem stored_nil (i : Instr) (s : State) : stored i [] s = s.rxbuf := by
  cases i <;> rfl

/-- Writing the results stores what was received from index 0, or leaves `RXBUF` alone (R22). -/
theorem stored_eq_or (i : Instr) (rx : List Byte) (s : State) :
    stored i rx s = s.rxbuf.writeBytes 0 rx ∨ stored i rx s = s.rxbuf := by
  cases i with
  | rdcmd _ _ => exact .inl rfl
  | rdchain _ _ _ => exact .inl rfl
  | _ => exact .inr rfl

/-- Writing the results leaves every byte of `RXBUF` from the count received on (R22). -/
theorem stored_outside {i : Instr} {s : State} {rx : List Byte} {k : Nat} (hk : rx.length ≤ k) :
    (stored i rx s).read k = s.rxbuf.read k := by
  obtain hst | hst := stored_eq_or i rx s <;> rw [hst]
  exact Memory.read_writeBytes_outside rx s.rxbuf 0 (.inr (by omega))

/-- A framer operation that receives nothing leaves `RXBUF` as it was, whatever the outcome (R22). -/
theorem exec_sending_rxbuf {i : Instr} (h : isFramer i = true) (hn : receivedCount i = 0) {s t : State}
    (he : exec i s = .next t) : t.rxbuf = s.rxbuf := by
  cases framerEnd_of_exec h he with
  | rejected _ => rfl
  | failed _ hu _ =>
    rw [State.raiseTransportErr_rxbuf, hn, State.spoilReceived_zero, transacted_rxbuf hu]
  | done _ hu hrx _ =>
    rw [hn] at hrx
    rw [List.length_eq_zero_iff.mp hrx, concluded_rxbuf, stored_nil, transacted_rxbuf hu]

/-- Unless a transfer failed, a framer operation leaves `RXBUF` from the count received on (R22). -/
theorem exec_framer_rxbuf_outside {i : Instr} (h : isFramer i = true) {s t : State}
    (he : exec i s = .next t) (hst : t.status ≠ .transportErr) {a : Nat} (ha : receivedCount i ≤ a) :
    t.rxbuf.read a = s.rxbuf.read a := by
  cases framerEnd_of_exec h he with
  | rejected _ => rfl
  | failed _ _ _ => exact absurd rfl hst
  | done _ hu hrx _ =>
    rw [concluded_rxbuf, stored_outside (hrx.trans_le ha), transacted_rxbuf hu]

/-- Settles O27: `exec_framerWrites` for what no framer operation writes, `exec_sending_rxbuf`, and a
rejection read off `eq_endOffBus_of_rejected`. -/
theorem sendingFrame : Obligations.SendingFrame := by
  intro i s t hi hn he
  obtain ⟨-, -, hhost⟩ := exec_hostOwned he
  have hwrites := exec_framerWrites hi he
  refine ⟨hhost, framerWrites_tableKept hwrites, framerWrites_pecOut hwrites,
    fun a => by rw [exec_sending_rxbuf hi hn he], fun hst => ?_⟩
  rw [eq_endOffBus_of_rejected hi he hst]
  exact ⟨fun _ => rfl, rfl, rfl, rfl, rfl⟩

/-- Settles O28: as for the sending operations, with `RXBUF` by `exec_framer_rxbuf_outside`. -/
theorem readingFrame : Obligations.ReadingFrame := by
  intro i s t hread he
  have hi : isFramer i = true := by obtain ⟨_, _, rfl⟩ | ⟨_, _, _, rfl⟩ := hread <;> rfl
  obtain ⟨-, -, hhost⟩ := exec_hostOwned he
  have hwrites := exec_framerWrites hi he
  refine ⟨hhost, framerWrites_tableKept hwrites, framerWrites_pecOut hwrites,
    fun hst a ha => exec_framer_rxbuf_outside hi he hst ha, fun hst => ?_⟩
  rw [eq_endOffBus_of_rejected hi he hst]
  exact ⟨fun _ => rfl, fun _ => rfl, rfl, rfl, rfl, rfl⟩

/-- The calls of a transaction that sends alone hold no receive. -/
theorem transferIn_not_mem_send {out : List Byte} {failure : Option TransportReport} {n : Nat}
    {a : Answer} : .transferIn n a ∉ [TransportCall.select, .transferOut out failure, .deselect] := by
  simp

/-- The calls of a transaction that receives hold one receive. -/
theorem transferIn_mem_receive {out : List Byte} {failure : Option TransportReport} {n m : Nat}
    {a b : Answer} :
    .transferIn m b ∈ [TransportCall.select, .transferOut out failure, .transferIn n a, .deselect] ↔
      m = n ∧ b = a := by
  simp

/-- A receive among the calls of a transaction is its one receive. -/
theorem ranTransaction_receive {s u : State} {n m : Nat} {failure : Option TransportReport}
    {a b : Answer} {calls : List TransportCall} (h : ranTransaction s u n failure b)
    (htr : u.trace = s.trace ++ calls) (hmem : .transferIn m a ∈ calls) :
    n ≠ 0 ∧ a = b ∧ ∃ out, calls = [.select, .transferOut out none, .transferIn n b, .deselect] := by
  obtain ⟨out, hsend | ⟨hn, hreceive⟩⟩ := h
  · rw [← List.append_cancel_left (hsend.symm.trans htr)] at hmem
    exact absurd hmem transferIn_not_mem_send
  · obtain rfl := List.append_cancel_left (hreceive.symm.trans htr)
    obtain ⟨-, hab⟩ := transferIn_mem_receive.mp hmem
    exact ⟨hn, hab, out, rfl⟩

/-- Every receive is the one receive of a legal operation that asks for bytes (R39). -/
theorem exec_receives {i : Instr} {s t : State} {n : Nat} {a : Answer} {calls : List TransportCall}
    (he : exec i s = .next t) (htr : t.trace = s.trace ++ calls) (hmem : .transferIn n a ∈ calls) :
    i.wellFormed s.config = true ∧ receivedCount i ≠ 0 ∧
      (∃ out, calls =
        [.select, .transferOut out none, .transferIn (receivedCount i) a, .deselect]) ∧
      ∀ rx, a = .ok rx → rx.length = receivedCount i := by
  have hnone : t.trace ≠ s.trace := fun h => by
    rw [List.self_eq_append_right.mp (h.symm.trans htr)] at hmem
    exact List.not_mem_nil hmem
  cases hi : isFramer i with
  | false => exact absurd (exec_nonframer_trace hi he) hnone
  | true =>
    cases framerEnd_of_exec hi he with
    | rejected _ => exact absurd rfl hnone
    | failed hlegal _ hcalls =>
      rw [State.raiseTransportErr_trace, State.spoilReceived_trace] at htr
      obtain ⟨hn, rfl, hwhole⟩ := ranTransaction_receive hcalls htr hmem
      exact ⟨hlegal, hn, hwhole, fun _ hok => nomatch hok⟩
    | done hlegal _ hrx hcalls =>
      obtain ⟨hn, rfl, hwhole⟩ := ranTransaction_receive hcalls htr hmem
      exact ⟨hlegal, hn, hwhole, fun _ hok => by cases hok; exact hrx⟩

/-- Settles O34: the four calls of `exec_receives` hold one receive, for the operation's count. -/
theorem receivingCalls : Obligations.ReceivingCalls := by
  intro i s t n a calls he htr hmem
  obtain ⟨hlegal, hn, ⟨out, rfl⟩, hlen⟩ := exec_receives he htr hmem
  obtain ⟨rfl, -⟩ := transferIn_mem_receive.mp hmem
  exact ⟨isRead_of_receivedCount_ne_zero hn, rfl, two_le_receivedCount hlegal hn, by simp,
    fun m b hmb => transferIn_mem_receive.mp hmb, hlen⟩

/-- An operation that receives nothing sets no bit of the mask (R93, R95, R97). -/
theorem verdict_mask_of_receives_nothing {i : Instr} (h : receivedCount i = 0) (rx : List Byte)
    (s : State) : (verdict i rx s).1 = 0 := by
  cases i with
  | rdcmd cmd len => cases h
  | rdchain cmd len ndev =>
    have hndev : ndev.toNat = 0 := (Nat.mul_eq_zero.mp h).resolve_left (Nat.succ_ne_zero _)
    simp [verdict, checkChain, hndev]
  | _ => rfl

/-- What a framer operation that receives nothing can end in (R93, R95, R97). -/
theorem exec_sending_status {i : Instr} (h : isFramer i = true) (hn : receivedCount i = 0)
    {s t : State} (he : exec i s = .next t) :
    t.status = .ok ∨ t.status = .transportErr ∨
      (t.status = .rejected ∧ i.wellFormed s.config = false) := by
  cases framerEnd_of_exec h he with
  | rejected hill => exact .inr (.inr ⟨rfl, hill⟩)
  | failed _ _ _ => exact .inr (.inl rfl)
  | done _ _ _ _ =>
    rw [concluded_status, verdict_mask_of_receives_nothing hn]
    exact .inl rfl

/-- Settles O37: the framer operations by `exec_sending_status`, of which `RUN` is never rejected, the
others by their own definitions. -/
theorem outcomesOfEachOperation : Obligations.OutcomesOfEachOperation := by
  intro s t cmd len ndev
  refine ⟨fun he => ?_, fun he => ?_, fun he => ?_, fun he => ?_, fun he => ?_, fun he => ?_⟩
  · cases he
    rfl
  · obtain ⟨h, -⟩ | ⟨_, -, rfl⟩ | ⟨_, -, -, rfl⟩ | ⟨h, -⟩ := exec_nonframer_cases rfl he
    · cases h
    · exact .inr rfl
    · exact .inl rfl
    · cases h
  · obtain hok | hfail | ⟨-, hill⟩ := exec_sending_status rfl rfl he
    · exact .inl hok
    · exact .inr hfail
    · cases hill
  · exact (exec_sending_status rfl rfl he).imp_right (.imp_right And.left)
  · exact (exec_sending_status rfl rfl he).imp_right (.imp_right And.left)
  · cases he
    rfl

/-! ### Operations that end without a transport call -/

/-- An illegal framer request is rejected, table built or not (R114, R118). -/
theorem exec_framer_illegal {i : Instr} (h : isFramer i = true) {s : State}
    (hill : i.wellFormed s.config = false) : exec i s = .next (s.endOffBus .rejected) := by
  rw [exec_framer h, framer, if_pos hill, State.raise_rejected]

theorem exec_pec15_illegal {s : State} {len : Len} (hill : pec15Legal s.config len = false) :
    exec (.pec15 len) s = .next (s.endOffBus .rejected) := by
  rw [exec, execPec15, if_pos hill, State.raise_rejected]

/-- A legal framer request before the table is built faults (R115, R118). -/
theorem exec_framer_notBuilt {i : Instr} (h : isFramer i = true) {s : State}
    (hlegal : i.wellFormed s.config = true) (hr : s.tblReady = false) :
    exec i s = .fault .tableNotBuilt := by
  rw [exec_framer h, framer, if_neg (by simp [hlegal]), if_pos hr]

theorem exec_pec15_notBuilt {s : State} {len : Len} (hlegal : pec15Legal s.config len = true)
    (hr : s.tblReady = false) : exec (.pec15 len) s = .fault .tableNotBuilt := by
  rw [exec, execPec15, if_neg (by simp [hlegal]), if_pos hr]

/-- `PEC15` on a legal length with the table built (R75). -/
theorem exec_pec15_ready {s : State} {len : Len} (hlegal : pec15Legal s.config len = true)
    (hr : s.tblReady = true) :
    exec (.pec15 len) s = .next ({ s with
      rem := crcRem s.tbl (s.txbuf.readBytes 0 len.toNat)
      pecOut := pec15 s.tbl (s.txbuf.readBytes 0 len.toNat) }.endOffBus .ok) := by
  rw [exec, execPec15, if_neg (by simp [hlegal]), if_neg (by simp [hr])]

theorem pec15Legal_iff {c : Config} {len : Len} :
    pec15Legal c len = true ↔ len.toNat ≤ 8 * c.maxDataLen :=
  decide_eq_true_iff

/-- Settles O29: each request is illegal by the bound it breaks, and a rejection is `endOffBus`. -/
theorem illegalRequestsAreRejected : Obligations.IllegalRequestsAreRejected := by
  intro s cmd len ndev
  have hlen (h : s.config.maxDataLen < len.toNat) : lenLegal s.config len = false :=
    decide_eq_false (Nat.not_le.mpr h)
  have hchain (h : s.config.maxDataLen < len.toNat ∨ ndev.toNat = 0 ∨ 8 < ndev.toNat) :
      chainLegal s.config len ndev = false := by
    have hmax : maxDevices = 8 := rfl
    simp only [chainLegal, lenLegal, ndevLegal, Bool.and_eq_false_iff, decide_eq_false_iff_not]
    omega
  refine ⟨⟨_, rfl, rfl⟩, fun h => ⟨_, exec_pec15_illegal ?_, rfl⟩,
    fun h => ⟨⟨_, exec_framer_illegal rfl (hlen h), rfl⟩, ⟨_, exec_framer_illegal rfl (hlen h), rfl⟩⟩,
    fun h => ⟨⟨_, exec_framer_illegal rfl (hchain h), rfl⟩,
      ⟨_, exec_framer_illegal rfl (hchain h), rfl⟩⟩⟩
  exact Bool.eq_false_of_not_eq_true fun hl => Nat.not_le.mpr h (pec15Legal_iff.mp hl)

/-- Settles O30: `PEC15` and the framer operations test the table next after the legal ranges. -/
theorem tableNotBuiltFaults : Obligations.TableNotBuiltFaults := by
  intro s i hi hlegal hr
  cases i with
  | pec15 len => exact exec_pec15_notBuilt hlegal hr
  | init => cases hi
  | reserved7 => cases hi
  | wireH _ _ => cases hi
  | wireD _ _ => cases hi
  | _ => exact exec_framer_notBuilt rfl hlegal hr

/-- Settles O17: the empty input by definition, the operation by `exec_pec15_ready`. -/
theorem emptyInputAndPurity : Obligations.EmptyInputAndPurity := by
  have hzero (c : Config) : pec15Legal c 0 = true := pec15Legal_iff.mpr (Nat.zero_le _)
  refine ⟨pec15_nil, fun s hr => ⟨_, exec_pec15_ready (hzero _) hr, rfl⟩,
    fun s m hr => ⟨_, _, exec_pec15_ready (hzero _) hr, exec_pec15_ready (hzero _) hr, rfl⟩,
    fun s len hr hlen => ⟨_, exec_pec15_ready (pec15Legal_iff.mpr hlen) hr, rfl⟩⟩

/-- Settles O20: `INIT` writes the built table, whose entries are those of R72. -/
theorem initBuildsTheTable : Obligations.InitBuildsTheTable :=
  fun _ => ⟨_, rfl, rfl, lookup_builtTable⟩

/-- Settles O21: `exec_pec15_ready` with the built table, through which a PEC is the bit-serial CRC. -/
theorem pec15Completes : Obligations.Pec15Completes := by
  intro s len hr hs hlen
  refine ⟨_, exec_pec15_ready (pec15Legal_iff.mpr hlen) hr, ?_⟩
  rw [hs hr, pec15IsBitSerialCrc]
  rfl

/-- Settles O49: both arms refuse. -/
theorem wireFormatsAreRefused : Obligations.WireFormatsAreRefused :=
  fun _ _ _ _ => ⟨rfl, rfl⟩

end Sys2Proof.Machine
end

-- How a framer operation ends once the transport's answers are known (R93 to R97, R113).
section
/-!
SUPPORT. The proofs about single framer operations with given answers: the state after the transport
calls is written out once, for an operation that was stopped at its send or at its receive and for one
that completed.
-/

namespace Sys2Proof.Machine

/-- The bytes an operation offers to the transport: what it has assembled in `FRAME`. -/
def offered (i : Instr) (s : State) : List Byte := (assembled i s).frame.readBytes 0 (sentCount i)

/-- The state when the bus is released after the send (R92, first and third shape). -/
def afterSend (i : Instr) (s : State) : State :=
  ((assembled i s).select.sendBytes (offered i s)).deselect

/-- The state when the bus is released after the receive (R92, second and fourth shape). -/
def afterReceive (i : Instr) (s : State) : State :=
  (((assembled i s).select.sendBytes (offered i s)).receiveBytes (receivedCount i)).deselect

section

variable {i : Instr} {s : State}

@[simp] theorem afterSend_answers : (afterSend i s).answers = s.answered.answers := by
  simp [afterSend]

@[simp] theorem afterReceive_answers : (afterReceive i s).answers = s.answered.answered.answers := by
  simp [afterReceive]

theorem assembled_sendFailure : (assembled i s).select.sendFailure = s.sendFailure := by
  simp only [State.sendFailure, select_answer, assembled_answer]

theorem afterSend_trace : (afterSend i s).trace =
    s.trace ++ [.select, .transferOut (offered i s) s.sendFailure, .deselect] := by
  simp [afterSend, assembled_sendFailure]

theorem afterReceive_trace : (afterReceive i s).trace = s.trace ++
    [.select, .transferOut (offered i s) s.sendFailure,
     .transferIn (receivedCount i) (s.answered.receiveAnswer (receivedCount i)), .deselect] := by
  simp [afterReceive, assembled_sendFailure, sendBytes_receiveAnswer,
    assembled_answered_receiveAnswer]

theorem transacted_afterSend : transacted s (afterSend i s) :=
  transacted_of (busOnly_trans (busOnly_select _)
    (busOnly_trans (busOnly_sendBytes _ _) (busOnly_deselect _))) rfl rfl

theorem transacted_afterReceive : transacted s (afterReceive i s) :=
  transacted_of (busOnly_trans (busOnly_select _) (busOnly_trans (busOnly_sendBytes _ _)
    (busOnly_trans (busOnly_receiveBytes _ _) (busOnly_deselect _)))) rfl rfl

theorem sendFailure_of_ok {ignored : List Byte} (ha : s.answer = .ok ignored) :
    s.sendFailure = none := by
  rw [State.sendFailure, ha]

theorem sendFailure_of_fail {e : TransportReport} (ha : s.answer = .fail e) :
    s.sendFailure = some e := by
  rw [State.sendFailure, ha]

/-- A failed answer is no bytes received, whatever the count asked for. -/
theorem receiveAnswer_of_fail {e : TransportReport} (ha : s.answer = .fail e) (n : Nat) :
    s.receiveAnswer n = .fail e := by
  rw [State.receiveAnswer, ha]

variable (hi : isFramer i = true) (hlegal : i.wellFormed s.config = true) (hr : s.tblReady = true)
include hi hlegal hr

/-- A framer operation whose send the transport fails (R113). -/
theorem exec_send_fails {e : TransportReport} (ha : s.answer = .fail e) :
    exec i s =
      .next (((afterSend i s).spoilReceived (receivedCount i)).raise (.transportErr e)) := by
  rw [exec_framer_ready hi hlegal hr, txn_send_fails _ _ ((assembled_answer i s).trans ha)]
  rfl

/-- A framer operation that receives nothing and whose send the transport accepts (R93, R95, R97). -/
theorem exec_sends {ignored : List Byte} (hn : receivedCount i = 0) (ha : s.answer = .ok ignored) :
    exec i s = .next (concluded i [] (afterSend i s)) := by
  rw [exec_framer_ready hi hlegal hr, hn, txn_sends _ ((assembled_answer i s).trans ha)]
  rfl

/-- A read whose receive the transport fails (R113). -/
theorem exec_receive_fails {ignored : List Byte} {e : TransportReport} (hn : receivedCount i ≠ 0)
    (ha : s.answer = .ok ignored) (ha' : s.answered.receiveAnswer (receivedCount i) = .fail e) :
    exec i s =
      .next (((afterReceive i s).spoilReceived (receivedCount i)).raise (.transportErr e)) := by
  rw [exec_framer_ready hi hlegal hr, txn_receive_fails _ hn ((assembled_answer i s).trans ha)
    ((assembled_answered_receiveAnswer i s _).trans ha')]
  rfl

/-- A read whose two transfers succeed (R94, R96). -/
theorem exec_receives_ok {ignored rx : List Byte} (hn : receivedCount i ≠ 0)
    (ha : s.answer = .ok ignored) (ha' : s.answered.receiveAnswer (receivedCount i) = .ok rx) :
    exec i s = .next (concluded i rx (afterReceive i s)) := by
  rw [exec_framer_ready hi hlegal hr, txn_receives _ hn ((assembled_answer i s).trans ha)
    ((assembled_answered_receiveAnswer i s _).trans ha')]
  rfl

variable (hs : s.tableSound) (hf : s.frame.wf = true)
include hs hf

omit hlegal in
/-- With the table built an operation offers what R56 says it sends. -/
theorem offered_eq_sentBytes : offered i s = sentBytes s.txbuf i :=
  readBytes_assembled hi hf (hs hr)

/-- Everything a sending operation does when the transport accepts its bytes. -/
theorem exec_sends_ok {ignored : List Byte} (hn : receivedCount i = 0) (ha : s.answer = .ok ignored) :
    ∃ t, exec i s = .next t ∧ t.status = .ok ∧ t.errmask = 0 ∧ t.cs = .released ∧ t.seq = .idle ∧
      t.answers = s.answered.answers ∧
      t.trace = s.trace ++ [.select, .transferOut (sentBytes s.txbuf i) none, .deselect] := by
  have hmask := verdict_mask_of_receives_nothing hn [] (afterSend i s)
  refine ⟨_, exec_sends hi hlegal hr hn ha, ?_, hmask, rfl, rfl, afterSend_answers, ?_⟩
  · rw [concluded_status, hmask]
    rfl
  · rw [concluded_trace, afterSend_trace, offered_eq_sentBytes hi hr hs hf, sendFailure_of_ok ha]

/-- Everything a read does when both its transfers succeed. -/
theorem exec_reads_ok {ignored rx : List Byte} (hb : s.rxbuf.wf = true) (hn : receivedCount i ≠ 0)
    (ha : s.answer = .ok ignored) (ha' : s.answered.receiveAnswer (receivedCount i) = .ok rx) :
    ∃ t, exec i s = .next t ∧ t.cs = .released ∧ t.seq = .idle ∧
      t.trace = s.trace ++
        [.select, .transferOut (sentBytes s.txbuf i) none, .transferIn (receivedCount i) (.ok rx),
         .deselect] ∧
      (∀ k, k < receivedCount i → t.rxbuf.read k = rx.getD k 0) ∧
      (∀ k, receivedCount i ≤ k → t.rxbuf.read k = s.rxbuf.read k) ∧
      (∀ p, p < 8 → (t.errmask.getLsbD p = true ↔
        p < recordsChecked i ∧ recordFails rx (recordPayload i) p = true)) ∧
      t.status = statusOfMask t.errmask := by
  have hu : transacted s (afterReceive i s) := transacted_afterReceive
  have hrx := receiveAnswer_ok_length ha'
  refine ⟨_, exec_receives_ok hi hlegal hr hn ha ha', rfl, rfl, ?_, fun k hk => ?_, fun k hk => ?_,
    fun p hp => verdict_getLsbD i rx ((transacted_tbl hu).trans (hs hr)) hp, rfl⟩
  · rw [concluded_trace, afterReceive_trace, offered_eq_sentBytes hi hr hs hf, sendFailure_of_ok ha,
      ha']
  · exact stored_read hn (transacted_rxbuf hu ▸ hb) (hrx ▸ hk)
  · rw [concluded_rxbuf, stored_outside (hrx.trans_le hk), transacted_rxbuf hu]

end

theorem lenLegal_of_le {c : Config} {len : Len} (h : len.toNat ≤ c.maxDataLen) :
    lenLegal c len = true :=
  decide_eq_true h

theorem chainLegal_of_le {c : Config} {len : Len} {ndev : NDev} (h : len.toNat ≤ c.maxDataLen)
    (h1 : 1 ≤ ndev.toNat) (h8 : ndev.toNat ≤ 8) : chainLegal c len ndev = true := by
  rw [chainLegal, lenLegal_of_le h, ndevLegal, decide_eq_true h1, Bool.true_and, Bool.true_and]
  exact decide_eq_true h8

/-- A legal chained read asks for at least one record. -/
theorem receivedCount_rdchain_ne_zero (cmd : Cmd) (len : Len) {ndev : NDev} (h1 : 1 ≤ ndev.toNat) :
    receivedCount (.rdchain cmd len ndev) ≠ 0 :=
  Nat.mul_ne_zero (Nat.succ_ne_zero _) (Nat.ne_of_gt h1)

/-- Settles O22: `RUN` sends the header alone. -/
theorem runCompletes : Obligations.RunCompletes :=
  fun _ _ _ hr hs hf ha => exec_sends_ok rfl rfl hr hs hf rfl ha

/-- Settles O23: `WRCMD` sends the header and one segment. -/
theorem wrcmdCompletes : Obligations.WrcmdCompletes :=
  fun _ _ _ _ hr hs hf hlen ha => exec_sends_ok rfl (lenLegal_of_le hlen) hr hs hf rfl ha

/-- Settles O24: `WRCHAIN` sends the header and the segments in the order `sentBytes` gives. -/
theorem wrchainCompletes : Obligations.WrchainCompletes :=
  fun _ _ _ _ _ hr hs hf hlen h1 h8 ha =>
    exec_sends_ok rfl (chainLegal_of_le hlen h1 h8) hr hs hf rfl ha

/-- The single record fails when its last two bytes are not the PEC of the others (R94). -/
theorem recordFails_first (rx : List Byte) (dlen : Nat) :
    recordFails rx dlen 0 = true ↔
      pec15 builtTable (rx.take dlen) ≠ pecValue (rx.getD dlen 0) (rx.getD (dlen + 1) 0) := by
  simp [recordFails]

/-- A mask whose bits are those of one record is 1 when it fails and 0 when it does not. -/
theorem mask_of_one_record {m : Mask} {fails : Bool}
    (h : ∀ p, p < 8 → (m.getLsbD p = true ↔ p < 1 ∧ fails = true)) : m = if fails then 1 else 0 := by
  refine BitVec.eq_of_getLsbD_eq fun p hp => ?_
  rw [Bool.eq_iff_iff, h p hp, Nat.lt_one_iff]
  cases fails with
  | false => simp
  | true => simp [BitVec.getLsbD_one]

/-- Settles O25: `exec_reads_ok` with one record, whose flag is the whole mask. -/
theorem rdcmdCompletes : Obligations.RdcmdCompletes := by
  intro s cmd len ignored rx hr hs hf hb hlen ha ha'
  obtain ⟨t, he, hcs, hseq, htr, hin, hout, hbits, hst⟩ :=
    exec_reads_ok (i := .rdcmd cmd len) rfl (lenLegal_of_le hlen) hr hs hf hb (Nat.succ_ne_zero _) ha ha'
  have hmask : t.errmask = if recordFails rx len.toNat 0 then 1 else 0 :=
    mask_of_one_record fun p hp => (hbits p hp).trans
      (and_congr_right fun h1 => by rw [Nat.lt_one_iff.mp h1]; rfl)
  refine ⟨t, he, hcs, hseq, htr, hin, hout, fun hpec => ?_, fun hpec => ?_⟩
  · have hpass : ¬ recordFails rx len.toNat 0 = true := fun h => (recordFails_first ..).mp h hpec
    rw [if_neg hpass] at hmask
    exact ⟨by rw [hst, hmask]; rfl, hmask⟩
  · rw [if_pos ((recordFails_first ..).mpr hpec)] at hmask
    exact ⟨by rw [hst, hmask]; rfl, hmask⟩

/-- Settles O26: `exec_reads_ok` with one record a device. -/
theorem rdchainCompletes : Obligations.RdchainCompletes :=
  fun _ cmd len ndev _ _ hr hs hf hb hlen h1 h8 ha ha' =>
    exec_reads_ok (i := .rdchain cmd len ndev) rfl (chainLegal_of_le hlen h1 h8) hr hs hf hb
      (receivedCount_rdchain_ne_zero cmd len h1) ha ha'

/-- Settles O31: `exec_send_fails`, with the calls of a send that was refused. -/
theorem sendFailureIsReported : Obligations.SendFailureIsReported := by
  intro s i e hi hlegal hr hs hf ha
  refine ⟨_, exec_send_fails hi hlegal hr ha, rfl, rfl, rfl, rfl, ?_, ?_⟩
  · rw [State.raiseTransportErr_answers, State.spoilReceived_answers, afterSend_answers]
  · rw [State.raiseTransportErr_trace, State.spoilReceived_trace, afterSend_trace,
      offered_eq_sentBytes hi hr hs hf, sendFailure_of_fail ha]

/-- Settles O32: `exec_receive_fails`, with the calls of a read that failed at its receive. -/
theorem receiveFailureIsReported : Obligations.ReceiveFailureIsReported := by
  intro s i ignored e hi hn hlegal hr hs hf ha hfail
  have ha' := receiveAnswer_of_fail hfail (receivedCount i)
  refine ⟨_, exec_receive_fails hi hlegal hr hn ha ha', rfl, rfl, rfl, rfl, ?_⟩
  rw [State.raiseTransportErr_trace, State.spoilReceived_trace, afterReceive_trace,
    offered_eq_sentBytes hi hr hs hf, sendFailure_of_ok ha, ha']

end Sys2Proof.Machine
end

-- A single-device operation is the chained operation with one device (R64).
section
/-!
SUPPORT. The proof of R64: the legality test, the count received, the check and the assembly of a chain
of one are those of the single-device operation.
-/

namespace Sys2Proof.Machine

theorem chainLegal_one (c : Config) (len : Len) : chainLegal c len 1 = lenLegal c len :=
  Bool.and_true _

/-- The check of a chain of one record is the single check (R96 and R94). -/
theorem checkChain_one (t : Table) (rx : List Byte) (dlen : Nat) (r : Rem) :
    checkChain t rx dlen 1 r = checkSingle t rx dlen := by
  simp [checkChain, checkPosition, checkSingle, recordOffset, positionFlag]

theorem verifyChain_one (dlen : Nat) : verifyChain dlen 1 = verifySingle dlen := by
  funext rx s
  rw [verifyChain, verifySingle, checkChain_one]

/-- The assembly of a chain of one segment is the single assembly (R97 and R95). -/
theorem assembleChain_one (cmd : Cmd) (dlen : Nat) :
    assembleChain cmd dlen 1 = assembleSingle cmd dlen := by
  funext s
  simp [assembleChain, assembleSingle, putChainSegment, segmentOffset]

/-- Settles O41: the parts of the shared framer operation agree one by one. -/
theorem singleDeviceIsChainOfOne : Obligations.SingleDeviceIsChainOfOne := by
  intro s cmd len
  have hone : (1 : NDev).toNat = 1 := rfl
  constructor
  · simp only [exec, execRdchain, execRdcmd, chainLegal_one, hone, Nat.mul_one, verifyChain_one]
  · simp only [exec, execWrchain, execWrcmd, chainLegal_one, hone, assembleChain_one, segmentOffset,
      Nat.one_mul]

end Sys2Proof.Machine
end

-- An operation depends on no earlier outcome (41_command_framer.md section 3).
section
/-!
SUPPORT. The proof of R98 and R120: two states that agree in what an operation reads agree again after
its transport calls, and then the results it writes agree.
-/

namespace Sys2Proof.Machine

/-- The two states agree in everything an operation may depend on: the parameters, `TXBUF`, the table
and the transport. -/
structure SameInputs (s s' : State) : Prop where
  config : s'.config = s.config
  txbuf : s'.txbuf = s.txbuf
  tbl : s'.tbl = s.tbl
  tblReady : s'.tblReady = s.tblReady
  answers : s'.answers = s.answers
  draws : s'.draws = s.draws

theorem answered_draws_congr {s s' : State} (ha : s'.answers = s.answers) (hd : s'.draws = s.draws) :
    s'.answered.draws = s.answered.draws := by
  unfold State.answered
  rw [ha]
  cases s.answers with
  | nil => exact congrArg (· + 1) hd
  | cons _ _ => exact hd

theorem SameInputs.answered {s s' : State} (h : SameInputs s s') :
    SameInputs s.answered s'.answered where
  config := by simpa using h.config
  txbuf := by simpa using h.txbuf
  tbl := by simpa using h.tbl
  tblReady := by simpa using h.tblReady
  answers := by simp [h.answers]
  draws := answered_draws_congr h.answers h.draws

theorem SameInputs.answer {s s' : State} (h : SameInputs s s') : s'.answer = s.answer := by
  rw [State.answer, State.answer, h.answers, h.draws]

theorem SameInputs.receiveAnswer {s s' : State} (h : SameInputs s s') (n : Nat) :
    s'.receiveAnswer n = s.receiveAnswer n := by
  rw [State.receiveAnswer, State.receiveAnswer, h.answer, h.draws]

theorem SameInputs.sendFailure {s s' : State} (h : SameInputs s s') :
    s'.sendFailure = s.sendFailure := by
  rw [State.sendFailure, State.sendFailure, h.answer]

theorem SameInputs.transacted {s s' u u' : State} (h : SameInputs s s') (hu : transacted s u)
    (hu' : transacted s' u') (ha : u'.answers = u.answers) (hd : u'.draws = u.draws) :
    SameInputs u u' := by
  obtain ⟨-, -, hu⟩ := hu
  obtain ⟨-, -, hu'⟩ := hu'
  refine ⟨?_, ?_, ?_, ?_, ha, hd⟩
  · rw [hu, hu']
    exact h.config
  · rw [hu, hu']
    exact h.txbuf
  · rw [hu, hu']
    exact h.tbl
  · rw [hu, hu']
    exact h.tblReady

theorem assembled_draws (i : Instr) (s : State) : (assembled i s).draws = s.draws := by
  rw [assemblyOnly_assembled i s]

theorem afterSend_draws (i : Instr) (s : State) : (afterSend i s).draws = s.answered.draws :=
  answered_draws_congr (assembled_answers i s) (assembled_draws i s)

theorem afterReceive_draws (i : Instr) (s : State) :
    (afterReceive i s).draws = s.answered.answered.draws :=
  answered_draws_congr afterSend_answers (afterSend_draws i s)

theorem afterSend_rxbuf (i : Instr) (s : State) : (afterSend i s).rxbuf = s.rxbuf :=
  transacted_rxbuf transacted_afterSend

theorem afterReceive_rxbuf (i : Instr) (s : State) : (afterReceive i s).rxbuf = s.rxbuf :=
  transacted_rxbuf transacted_afterReceive

theorem SameInputs.afterSend {s s' : State} (h : SameInputs s s') (i : Instr) :
    SameInputs (afterSend i s) (afterSend i s') := by
  refine h.transacted transacted_afterSend transacted_afterSend ?_ ?_
  · rw [afterSend_answers, afterSend_answers, h.answered.answers]
  · rw [afterSend_draws, afterSend_draws, h.answered.draws]

theorem SameInputs.afterReceive {s s' : State} (h : SameInputs s s') (i : Instr) :
    SameInputs (afterReceive i s) (afterReceive i s') := by
  refine h.transacted transacted_afterReceive transacted_afterReceive ?_ ?_
  · rw [afterReceive_answers, afterReceive_answers, h.answered.answered.answers]
  · rw [afterReceive_draws, afterReceive_draws, h.answered.answered.draws]

/-- What an operation offers to the transport does not depend on what `FRAME` held before. -/
theorem SameInputs.offered {s s' : State} (h : SameInputs s s') {i : Instr} (hi : isFramer i = true)
    (hf : s.frame.wf = true) (hf' : s'.frame.wf = true) : offered i s' = offered i s := by
  have hheader (cmd : Cmd) : (s'.putHeader cmd).frame.readBytes 0 hdrLen =
      (s.putHeader cmd).frame.readBytes 0 hdrLen := by
    rw [readBytes_putHeader s' cmd hf', readBytes_putHeader s cmd hf, h.tbl]
  cases i with
  | run cmd => exact hheader cmd
  | rdcmd cmd len => exact hheader cmd
  | rdchain cmd len ndev => exact hheader cmd
  | wrcmd cmd len =>
    refine (readBytes_assembleSingle s' cmd len.toNat hf').trans ?_
    rw [h.tbl, h.txbuf]
    exact (readBytes_assembleSingle s cmd len.toNat hf).symm
  | wrchain cmd len ndev =>
    obtain ⟨-, -, hsent'⟩ := assembleChain_spec s' cmd len.toNat ndev.toNat hf'
    obtain ⟨-, -, hsent⟩ := assembleChain_spec s cmd len.toNat ndev.toNat hf
    refine hsent'.trans ?_
    rw [h.tbl, h.txbuf]
    exact hsent.symm
  | _ => cases hi

/-- The mask of the chained check does not depend on what `REM` held before (R96). -/
theorem foldl_checkPosition_mask (t : Table) (rx : List Byte) (dlen : Nat) :
    ∀ (l : List Nat) {acc acc' : Mask × Rem}, acc.1 = acc'.1 →
      (l.foldl (checkPosition t rx dlen) acc).1 = (l.foldl (checkPosition t rx dlen) acc').1
  | [], _, _, h => h
  | k :: l, _, _, h => foldl_checkPosition_mask t rx dlen l (by
      rw [checkPosition_mask, checkPosition_mask, h])

theorem SameInputs.verdict_mask {s s' : State} (h : SameInputs s s') (i : Instr) (rx : List Byte) :
    (verdict i rx s').1 = (verdict i rx s).1 := by
  cases i with
  | rdcmd cmd len => rw [verdict, verdict, h.tbl]
  | rdchain cmd len ndev =>
    rw [verdict, verdict, h.tbl]
    exact foldl_checkPosition_mask _ _ _ _ rfl
  | _ => rfl

/-- What two runs of one operation have in common: `STATUS`, the calls made, the answers left, and what
of `ERRMASK`, `TERR`, `RXBUF` and `PEC_OUT` the operation wrote. -/
def sameOutcome (i : Instr) (s s' t t' : State) (calls : List TransportCall) : Prop :=
  t'.status = t.status ∧ t.trace = s.trace ++ calls ∧ t'.trace = s'.trace ++ calls ∧
    t'.answers = t.answers ∧
    (isFramer i = true → t.status ≠ .rejected → t'.errmask = t.errmask ∧ t'.terr = t.terr ∧
      ∀ k, k < receivedCount i → t'.rxbuf.read k = t.rxbuf.read k) ∧
    (∀ len, i = .pec15 len → t.status = .ok → t'.pecOut = t.pecOut)

theorem sameOutcome_rejected {s s' : State} (h : SameInputs s s') (i : Instr) :
    sameOutcome i s s' (s.endOffBus .rejected) (s'.endOffBus .rejected) [] :=
  ⟨rfl, (List.append_nil _).symm, (List.append_nil _).symm, h.answers,
    fun _ hst => absurd rfl hst, fun _ _ hst => nomatch hst⟩

theorem sameOutcome_failed {s s' u u' : State} (h : SameInputs u u') {i : Instr}
    (hi : isFramer i = true) {calls : List TransportCall} (htr : u.trace = s.trace ++ calls)
    (htr' : u'.trace = s'.trace ++ calls) (e : TransportReport) :
    sameOutcome i s s' ((u.spoilReceived (receivedCount i)).raise (.transportErr e))
      ((u'.spoilReceived (receivedCount i)).raise (.transportErr e)) calls := by
  refine ⟨rfl, ?_, ?_, ?_, fun _ _ => ⟨?_, rfl, fun k hk => ?_⟩, fun len hpec => ?_⟩
  · rw [State.raiseTransportErr_trace, State.spoilReceived_trace, htr]
  · rw [State.raiseTransportErr_trace, State.spoilReceived_trace, htr']
  · simp only [State.raiseTransportErr_answers, State.spoilReceived_answers, h.answers]
  · simp only [State.raiseTransportErr_errmask, State.spoilReceived_draws, h.draws]
  · have hn : receivedCount i ≠ 0 := Nat.ne_of_gt (Nat.zero_lt_of_lt hk)
    rw [State.raiseTransportErr_rxbuf, State.raiseTransportErr_rxbuf, State.spoilReceived_pos _ hn,
      State.spoilReceived_pos _ hn]
    simp only [freeRxbuf, h.config, h.draws]
  · rw [hpec] at hi
    cases hi

theorem sameOutcome_concluded {s s' u u' : State} (h : SameInputs u u') {i : Instr}
    (hi : isFramer i = true) {calls : List TransportCall} (htr : u.trace = s.trace ++ calls)
    (htr' : u'.trace = s'.trace ++ calls) {rx : List Byte} (hrx : rx.length = receivedCount i)
    (hb : u.rxbuf.wf = true) (hb' : u'.rxbuf.wf = true) :
    sameOutcome i s s' (concluded i rx u) (concluded i rx u') calls := by
  have hmask := h.verdict_mask i rx
  refine ⟨congrArg statusOfMask hmask, htr, htr', h.answers,
    fun _ _ => ⟨hmask, congrArg Config.freeReport h.draws, fun k hk => ?_⟩, fun len hpec => ?_⟩
  · have hn : receivedCount i ≠ 0 := Nat.ne_of_gt (Nat.zero_lt_of_lt hk)
    rw [concluded_rxbuf, concluded_rxbuf, stored_read hn hb (hrx ▸ hk), stored_read hn hb' (hrx ▸ hk)]
  · rw [hpec] at hi
    cases hi

/-- A legal framer operation with the table built goes the same way in both states, whatever the
transport answers. -/
theorem exec_framer_ready_sameOutcome {i : Instr} {s s' t : State} (h : SameInputs s s')
    (hi : isFramer i = true) (hf : s.frame.wf = true) (hf' : s'.frame.wf = true)
    (hb : s.rxbuf.wf = true) (hb' : s'.rxbuf.wf = true) (hlegal : i.wellFormed s.config = true)
    (hr : s.tblReady = true) (he : exec i s = .next t) :
    ∃ t' calls, exec i s' = .next t' ∧ sameOutcome i s s' t t' calls := by
  have hlegal' : i.wellFormed s'.config = true := h.config ▸ hlegal
  have hr' : s'.tblReady = true := h.tblReady.trans hr
  have hsend := afterSend_trace (i := i) (s := s')
  have hreceive := afterReceive_trace (i := i) (s := s')
  rw [h.offered hi hf hf', h.sendFailure] at hsend hreceive
  rw [h.answered.receiveAnswer] at hreceive
  cases ha : s.answer with
  | fail e =>
    rw [exec_send_fails hi hlegal hr ha] at he
    cases he
    exact ⟨_, _, exec_send_fails hi hlegal' hr' (h.answer.trans ha),
      sameOutcome_failed (h.afterSend i) hi afterSend_trace hsend e⟩
  | ok ignored =>
    have ha' := h.answer.trans ha
    by_cases hn : receivedCount i = 0
    · rw [exec_sends hi hlegal hr hn ha] at he
      cases he
      exact ⟨_, _, exec_sends hi hlegal' hr' hn ha',
        sameOutcome_concluded (h.afterSend i) hi afterSend_trace hsend hn.symm
          ((afterSend_rxbuf i s).symm ▸ hb) ((afterSend_rxbuf i s').symm ▸ hb')⟩
    · cases hrx : s.answered.receiveAnswer (receivedCount i) with
      | fail e =>
        rw [exec_receive_fails hi hlegal hr hn ha hrx] at he
        cases he
        exact ⟨_, _,
          exec_receive_fails hi hlegal' hr' hn ha' ((h.answered.receiveAnswer _).trans hrx),
          sameOutcome_failed (h.afterReceive i) hi afterReceive_trace hreceive e⟩
      | ok rx =>
        rw [exec_receives_ok hi hlegal hr hn ha hrx] at he
        cases he
        exact ⟨_, _,
          exec_receives_ok hi hlegal' hr' hn ha' ((h.answered.receiveAnswer _).trans hrx),
          sameOutcome_concluded (h.afterReceive i) hi afterReceive_trace hreceive
            (receiveAnswer_ok_length hrx) ((afterReceive_rxbuf i s).symm ▸ hb)
            ((afterReceive_rxbuf i s').symm ▸ hb')⟩

/-- A framer operation that goes on in one of two states goes on alike in the other. -/
theorem exec_framer_sameOutcome {i : Instr} {s s' t : State} (h : SameInputs s s')
    (hi : isFramer i = true) (hf : s.frame.wf = true) (hf' : s'.frame.wf = true)
    (hb : s.rxbuf.wf = true) (hb' : s'.rxbuf.wf = true) (he : exec i s = .next t) :
    ∃ t' calls, exec i s' = .next t' ∧ sameOutcome i s s' t t' calls := by
  cases hlegal : i.wellFormed s.config with
  | false =>
    rw [exec_framer_illegal hi hlegal] at he
    cases he
    exact ⟨_, _, exec_framer_illegal hi (h.config ▸ hlegal), sameOutcome_rejected h i⟩
  | true =>
    cases hr : s.tblReady with
    | false =>
      rw [exec_framer_notBuilt hi hlegal hr] at he
      cases he
    | true => exact exec_framer_ready_sameOutcome h hi hf hf' hb hb' hlegal hr he

/-- `PEC15` is rejected in both states, or computes the same PEC. -/
theorem exec_pec15_sameOutcome {len : Len} {s s' t : State} (h : SameInputs s s')
    (he : exec (.pec15 len) s = .next t) :
    ∃ t' calls, exec (.pec15 len) s' = .next t' ∧ sameOutcome (.pec15 len) s s' t t' calls := by
  cases hlegal : pec15Legal s.config len with
  | false =>
    rw [exec_pec15_illegal hlegal] at he
    cases he
    exact ⟨_, _, exec_pec15_illegal (h.config ▸ hlegal), sameOutcome_rejected h _⟩
  | true =>
    cases hr : s.tblReady with
    | false =>
      rw [exec_pec15_notBuilt hlegal hr] at he
      cases he
    | true =>
      rw [exec_pec15_ready hlegal hr] at he
      cases he
      refine ⟨_, [], exec_pec15_ready (h.config ▸ hlegal) (h.tblReady.trans hr), rfl,
        (List.append_nil _).symm, (List.append_nil _).symm, h.answers, Bool.noConfusion,
        fun _ _ _ => ?_⟩
      simp only [State.endOffBus_pecOut, h.tbl, h.txbuf]

/-- Settles O42: the framer operations and `PEC15` by their lemmas, `INIT` and the reserved operation
by their definitions. -/
theorem earlierOutcomesDoNotMatter : Obligations.EarlierOutcomesDoNotMatter := by
  intro i s s' t hconfig htxbuf htbl hready hanswers hdraws hf hf' hb hb' he
  have h : SameInputs s s' := ⟨hconfig, htxbuf, htbl, hready, hanswers, hdraws⟩
  by_cases hi : isFramer i = true
  · exact exec_framer_sameOutcome h hi hf hf' hb hb' he
  · cases i with
    | pec15 len => exact exec_pec15_sameOutcome h he
    | init =>
      cases he
      exact ⟨_, [], rfl, rfl, (List.append_nil _).symm, (List.append_nil _).symm, h.answers,
        Bool.noConfusion, fun _ hpec => Instr.noConfusion hpec⟩
    | reserved7 =>
      cases he
      exact ⟨_, [], rfl, sameOutcome_rejected h .reserved7⟩
    | wireH _ _ => cases he
    | wireD _ _ => cases he
    | _ => exact absurd rfl hi

end Sys2Proof.Machine
end

-- The invariant of the machine (10_state.md section 8).
section
/-!
SUPPORT. The proofs about a step: what a step is, that a request goes on once the table is built, and
that the host's move and every operation keep each part of the invariant.
-/

namespace Sys2Proof.Machine

/-- A step with a request to come runs the operation its registers select (R57). -/
theorem step_request {s : State} {r : Request} {rest : List Request} (hseq : s.seq = .idle)
    (hreq : s.requests = r :: rest) :
    step s = exec (decodeRequest r.op r.cmd r.len r.ndev) (s.accept r rest) := by
  simp [step, State.atRest, hseq, hreq, State.requested]

theorem step_no_request {s : State} (hseq : s.seq = .idle) (hreq : s.requests = []) :
    step s = .next s := by
  simp [step, State.atRest, hseq, hreq]

theorem step_busy {s : State} (hseq : s.seq ≠ .idle) : step s = .fault .blockBusy := by
  simp [step, State.atRest, hseq]

/-- Settles O48: `step_no_request` and `step_busy`. -/
theorem stepWithoutAnInstruction : Obligations.StepWithoutAnInstruction :=
  fun _ => ⟨step_no_request, step_busy⟩

/-- Settles O47: the instruction decoded from the image is the one the registers select. -/
theorem stepRunsTheDecodedInstruction : Obligations.StepRunsTheDecodedInstruction := by
  intro s r rest i hseq hreq hdec
  have hi := (decodeReq_requestImage r.op r.cmd r.len r.ndev).symm.trans hdec
  cases hi
  exact ⟨step_request hseq hreq, rfl⟩

/-- Settles O46: the reset state's own fields. -/
theorem resetState : Obligations.ResetState :=
  ⟨rfl, rfl, rfl, rfl, rfl⟩

/-- Settles O44: the table is not marked ready, the buffers and the trace are empty. -/
theorem invariantHoldsAtReset : Obligations.InvariantHoldsAtReset where
  ease := ⟨rfl, rfl⟩
  table := fun hr => nomatch hr
  buffers := ⟨⟨rfl, rfl⟩, ⟨rfl, rfl⟩, ⟨rfl, rfl⟩⟩
  pecOut := rfl
  bus := rfl

/-- Whole transactions after whole transactions are whole transactions (R92). -/
theorem transactions_append {a b : List TransportCall} (ha : transactions a = true)
    (hb : transactions b = true) : transactions (a ++ b) = true := by
  fun_induction transactions a with
  | case1 => exact hb
  | case2 _ _ _ ih | case3 _ _ ih | case4 _ _ _ _ ih | case5 _ _ _ _ ih =>
    simp only [Bool.and_eq_true] at ha
    simpa [transactions, ha.1] using ih ha.2
  | case6 => cases ha

theorem bufferSound_filled (n : Nat) (f : Nat → Byte) : bufferSound n (Memory.filled n f) :=
  ⟨Memory.filled_wf n f, Memory.filled_within n f⟩

/-- Writing from index 0 what fits into a buffer keeps it sound. -/
theorem bufferSound_writeBytes {n : Nat} {m : Memory} {bs : List Byte} (h : bufferSound n m)
    (hbs : bs.length ≤ n) : bufferSound n (m.writeBytes 0 bs) :=
  ⟨Memory.writeBytes_wf bs 0 h.1, Memory.writeBytes_within bs 0 (by omega) h.2⟩

/-- A legal operation receives no more than `RXBUF` holds (R36). -/
theorem receivedCount_le_rxbufSize {i : Instr} {c : Config} (h : i.wellFormed c = true) :
    receivedCount i ≤ rxbufSize c := by
  cases i with
  | rdcmd cmd len =>
    have hlen : len.toNat ≤ c.maxDataLen := of_decide_eq_true h
    simp only [receivedCount, rxbufSize, maxDevices, pecLen]
    omega
  | rdchain cmd len ndev =>
    simp only [Instr.wellFormed, chainLegal, lenLegal, ndevLegal, Bool.and_eq_true,
      decide_eq_true_eq] at h
    obtain ⟨hlen, -, hndev⟩ := h
    rw [receivedCount, rxbufSize, Nat.mul_comm]
    exact Nat.mul_le_mul hndev (Nat.add_le_add_right hlen 2)
  | _ => exact Nat.zero_le _

/-- A framer operation keeps `RXBUF` canonical and inside its size, whatever the outcome (R36). -/
theorem exec_framer_rxbufSound {i : Instr} (h : isFramer i = true) {s t : State}
    (hb : bufferSound (rxbufSize s.config) s.rxbuf) (he : exec i s = .next t) :
    bufferSound (rxbufSize s.config) t.rxbuf := by
  cases framerEnd_of_exec h he with
  | rejected _ => exact hb
  | failed _ hu _ =>
    rw [State.raiseTransportErr_rxbuf]
    by_cases hn : receivedCount i = 0
    · rw [hn, State.spoilReceived_zero, transacted_rxbuf hu]
      exact hb
    · rw [State.spoilReceived_pos _ hn, hu.2.2]
      exact bufferSound_filled _ _
  | done hlegal hu hrx _ =>
    have hfits : _ ≤ rxbufSize s.config := hrx.trans_le (receivedCount_le_rxbufSize hlegal)
    have hwritten := bufferSound_writeBytes hb hfits
    rw [concluded_rxbuf]
    obtain hst | hst := stored_eq_or i _ _ <;> rw [hst, transacted_rxbuf hu]
    · exact hwritten
    · exact hb

/-- A framer operation keeps `FRAME` canonical and inside its size: a rejection does not touch it, and
any other outcome leaves it free inside its size (R20). -/
theorem exec_framer_frameSound {i : Instr} (h : isFramer i = true) {s t : State}
    (hb : bufferSound (frameSize s.config) s.frame) (he : exec i s = .next t) :
    bufferSound (frameSize s.config) t.frame := by
  cases framerEnd_of_exec h he with
  | rejected _ => exact hb
  | failed _ hu _ =>
    rw [State.raiseTransportErr_frame, freeFrame, State.spoilReceived_config, hu.2.2]
    exact bufferSound_filled _ _
  | done _ hu _ _ =>
    rw [concluded_frame, hu.2.2]
    exact bufferSound_filled _ _

theorem exec_buffersSound {i : Instr} {s t : State} (hb : s.buffersSound) (he : exec i s = .next t) :
    t.buffersSound := by
  cases hi : isFramer i with
  | false =>
    rw [exec_engineWrites hi he]
    exact hb
  | true =>
    obtain ⟨htx, hconfig, -⟩ := exec_hostOwned he
    obtain ⟨htxbuf, hrxbuf, hframe⟩ := hb
    unfold State.buffersSound
    rw [htx, hconfig]
    exact ⟨htxbuf, exec_framer_rxbufSound hi hrxbuf he, exec_framer_frameSound hi hframe he⟩

theorem exec_atEase {i : Instr} {s t : State} (h : s.atEase) (he : exec i s = .next t) :
    t.atEase := by
  cases hi : isFramer i with
  | false =>
    rw [exec_engineWrites hi he]
    exact h
  | true =>
    obtain hst | hease := exec_framer_rejected_or_atEase hi he
    · rw [eq_endOffBus_of_rejected hi he hst]
      exact h
    · exact hease

theorem exec_tableSound {i : Instr} {s t : State} (h : s.tableSound) (he : exec i s = .next t) :
    t.tableSound := by
  by_cases hinit : i = .init
  · subst hinit
    cases he
    exact fun _ => rfl
  · obtain ⟨hkept, -⟩ := onlyInitWritesTheTable i s t he
    obtain ⟨htbl, hready⟩ := hkept hinit
    exact fun hr => htbl.trans (h (hready ▸ hr))

theorem exec_pecOutSound {i : Instr} {s t : State} (h : s.pecOutSound) (he : exec i s = .next t) :
    t.pecOutSound := by
  obtain ⟨-, hchanged⟩ := onlyPec15WritesPecOut i s t he
  by_cases hsame : t.pecOut = s.pecOut
  · rw [State.pecOutSound, hsame]
    exact h
  · exact hchanged hsame

/-- The calls of one operation are none or one whole transaction (R37). -/
theorem exec_traceSound {i : Instr} {s t : State} (h : s.traceSound) (he : exec i s = .next t) :
    t.traceSound := by
  obtain ⟨calls, htr, hframer, hnone⟩ := busDiscipline i s t he
  rw [State.traceSound, htr]
  refine transactions_append h ?_
  by_cases hcalls : isFramer i = false ∨ t.status = .rejected
  · rw [hnone hcalls]
    rfl
  · obtain ⟨hi, hst⟩ := not_or.mp hcalls
    obtain ⟨-, -, -, -, hwhole⟩ := hframer (Bool.eq_true_of_not_eq_false hi) hst
    exact hwhole

/-- Every instruction that goes on keeps the invariant. -/
theorem exec_inv {i : Instr} {s t : State} (h : s.Inv) (he : exec i s = .next t) : t.Inv where
  ease := exec_atEase h.ease he
  table := exec_tableSound h.table he
  buffers := exec_buffersSound h.buffers he
  pecOut := exec_pecOutSound h.pecOut he
  bus := exec_traceSound h.bus he

/-- The host's move keeps the invariant: what does not fit into `TXBUF` is dropped (log 23). -/
theorem accept_inv {s : State} (h : s.Inv) (r : Request) (rest : List Request) :
    (s.accept r rest).Inv where
  ease := h.ease
  table := h.table
  buffers := by
    obtain ⟨htxbuf, hrxbuf, hframe⟩ := h.buffers
    exact ⟨bufferSound_writeBytes htxbuf (List.length_take_le ..), hrxbuf, hframe⟩
  pecOut := h.pecOut
  bus := h.bus

/-- Settles O43: a step with no request changes nothing, and any other is the host's move and an
instruction, which both keep the invariant. -/
theorem invariantKeptByEveryStep : Obligations.InvariantKeptByEveryStep := by
  intro s t h he
  obtain ⟨-, hseq⟩ := h.ease
  cases hreq : s.requests with
  | nil =>
    rw [step_no_request hseq hreq] at he
    cases he
    exact h
  | cons r rest =>
    rw [step_request hseq hreq] at he
    exact exec_inv (accept_inv h r rest) he

/-- With the table built every request goes on, legal or not (R114, R118). -/
theorem exec_request_goes_on {i : Instr} (h : i.format = .req) {s : State} (hr : s.tblReady = true) :
    ∃ t, exec i s = .next t := by
  cases hi : isFramer i with
  | true =>
    obtain ⟨-, hx⟩ | ⟨-, hnot, -⟩ | ⟨-, -, _, _, -, -, -, hend⟩ := exec_framer_cases hi s
    · exact ⟨_, hx⟩
    · rw [hr] at hnot
      cases hnot
    · obtain ⟨_, -, hx⟩ | ⟨-, _, -, hx⟩ | ⟨-, -, hx⟩ | ⟨-, _, -, -, hx⟩ := hend <;> exact ⟨_, hx⟩
  | false =>
    cases i with
    | init => exact ⟨_, rfl⟩
    | reserved7 => exact ⟨_, rfl⟩
    | pec15 len =>
      cases hlegal : pec15Legal s.config len with
      | false => exact ⟨_, exec_pec15_illegal hlegal⟩
      | true => exact ⟨_, exec_pec15_ready hlegal hr⟩
    | wireH _ _ => cases h
    | wireD _ _ => cases h
    | _ => cases hi

/-- Settles O45: a request selects no wire format, so by `exec_request_goes_on` the step goes on, and
the state it answers meets the invariant by O43. -/
theorem noStopOnceTheTableIsBuilt : Obligations.NoStopOnceTheTableIsBuilt := by
  intro s h hr
  obtain ⟨-, hseq⟩ := h.ease
  have hgoes : ∃ t, step s = .next t := by
    cases hreq : s.requests with
    | nil => exact ⟨s, step_no_request hseq hreq⟩
    | cons r rest =>
      rw [step_request hseq hreq]
      exact exec_request_goes_on (decodeRequest_format ..) hr
  obtain ⟨t, ht⟩ := hgoes
  rw [ht]
  exact invariantKeptByEveryStep s t h ht

end Sys2Proof.Machine
end

-- Chained reads (R35, R36, R96; 40_pec15.md section 6, 95_test_vectors.md section 1.4).
section
/-!
SUPPORT. The proofs about the records of a chain: where they lie, that a record carries the payload and
the PEC its device sent, and so which of them fail.
-/

namespace Sys2Proof.Machine

/-- Settles O50: the positions are at most eight and the lengths at most the parameter, so the last byte
of the last position is inside. -/
theorem offsetsStayInsideTheBuffers : Obligations.OffsetsStayInsideTheBuffers := by
  intro c len ndev i m hlen _ h8 hi hm
  have hpayload : (i + 1) * len.toNat ≤ 8 * c.maxDataLen := Nat.mul_le_mul (by omega) hlen
  have hrecord : (i + 1) * (len.toNat + 2) ≤ 8 * (c.maxDataLen + 2) :=
    Nat.mul_le_mul (by omega) (Nat.add_le_add_right hlen 2)
  rw [Nat.succ_mul] at hpayload hrecord
  simp only [payloadOffset, txbufSize, recordOffset, rxbufSize, segmentOffset, frameSize, segLen,
    pecLen, maxDevices, hdrLen]
  omega

/-- Dropping `i` pieces of one length leaves the pieces behind them. -/
theorem drop_flatMap_of_length {α β : Type} {f : α → List β} {n : Nat} :
    ∀ {l : List α} (i : Nat), (∀ x ∈ l, (f x).length = n) →
      (l.flatMap f).drop (i * n) = (l.drop i).flatMap f
  | _, 0, _ => by rw [Nat.zero_mul, List.drop_zero, List.drop_zero]
  | [], i + 1, _ => by simp
  | x :: l, i + 1, h => by
    have hx : (f x).length = n := h x List.mem_cons_self
    rw [List.flatMap_cons, List.drop_succ_cons, Nat.succ_mul, Nat.add_comm, ← hx,
      List.drop_length_add_append, hx]
    exact drop_flatMap_of_length i fun y hy => h y (List.mem_cons_of_mem x hy)

/-- What a chain of `n` devices answers: each its payload and behind it the bytes of a PEC (R55). -/
def chainAnswer (n : Nat) (payload : Nat → List Byte) (pec : Nat → Pec) : List Byte :=
  (List.range n).flatMap fun i => payload i ++ pecBytes (pec i)

section

variable {n dlen : Nat} {payload : Nat → List Byte} {pec : Nat → Pec}
  (hlen : ∀ i, i < n → (payload i).length = dlen)
include hlen

theorem chainAnswer_length : (chainAnswer n payload pec).length = (dlen + 2) * n := by
  have hconst : (List.range n).map (fun i => (payload i ++ pecBytes (pec i)).length) =
      (List.range n).map fun _ => dlen + 2 :=
    List.map_congr_left fun i hi => by
      rw [List.length_append, hlen i (List.mem_range.mp hi), pecBytes_length]
  rw [chainAnswer, List.length_flatMap, hconst, List.map_const', List.sum_replicate_nat,
    List.length_range, Nat.mul_comm]

/-- From its offset on, record `i` stands in front of the later records. -/
theorem drop_chainAnswer {i : Nat} (hi : i < n) : ∃ rest,
    (chainAnswer n payload pec).drop (i * (dlen + 2)) = payload i ++ (pecBytes (pec i) ++ rest) := by
  have hpieces : ∀ k ∈ List.range n, (payload k ++ pecBytes (pec k)).length = dlen + 2 :=
    fun k hk => by rw [List.length_append, hlen k (List.mem_range.mp hk), pecBytes_length]
  refine ⟨((List.range n).drop (i + 1)).flatMap fun k => payload k ++ pecBytes (pec k), ?_⟩
  rw [chainAnswer, drop_flatMap_of_length i hpieces, List.drop_eq_getElem_cons (by simpa using hi),
    List.flatMap_cons, List.getElem_range, List.append_assoc]

/-- A payload byte of record `i`, at its place in what was received (R35). -/
theorem chainAnswer_getD_payload {i m : Nat} (hi : i < n) (hm : m < dlen) :
    (chainAnswer n payload pec).getD (i * (dlen + 2) + m) 0 = (payload i).getD m 0 := by
  obtain ⟨rest, hdrop⟩ := drop_chainAnswer (pec := pec) hlen hi
  rw [List.getD_eq_getElem?_getD, ← List.getElem?_drop, hdrop, ← List.getD_eq_getElem?_getD,
    List.getD_append _ _ _ _ (by rwa [hlen i hi])]

/-- A byte behind the payload of record `i` is a byte of its PEC. -/
theorem chainAnswer_getD_pec {i k : Nat} (hi : i < n) (hk : k < 2) :
    (chainAnswer n payload pec).getD (i * (dlen + 2) + dlen + k) 0 = (pecBytes (pec i)).getD k 0 := by
  obtain ⟨rest, hdrop⟩ := drop_chainAnswer (pec := pec) hlen hi
  rw [List.getD_eq_getElem?_getD, Nat.add_assoc, ← List.getElem?_drop, hdrop,
    ← List.getD_eq_getElem?_getD, List.getD_append_right _ _ _ _ (by rw [hlen i hi]; omega),
    hlen i hi, Nat.add_sub_cancel_left, List.getD_append _ _ _ _ hk]

/-- A record fails exactly when the PEC its device sent is not that of the payload it sent (R112). -/
theorem recordFails_chainAnswer {i : Nat} (hi : i < n) :
    recordFails (chainAnswer n payload pec) dlen i = true ↔
      pec15 builtTable (payload i) ≠ pec i := by
  obtain ⟨rest, hdrop⟩ := drop_chainAnswer (pec := pec) hlen hi
  have hpayload : ((chainAnswer n payload pec).drop (i * (dlen + 2))).take dlen = payload i := by
    rw [hdrop, List.take_append_of_le_length (hlen i hi).ge, ← hlen i hi, List.take_length]
  have hhigh := chainAnswer_getD_pec (pec := pec) hlen hi (k := 0) (by decide)
  have hlow := chainAnswer_getD_pec (pec := pec) hlen hi (k := 1) (by decide)
  have hpec : pecValue ((pecBytes (pec i)).getD 0 0) ((pecBytes (pec i)).getD 1 0) = pec i :=
    pecValue_pecBytes (pec i)
  rw [Nat.add_zero] at hhigh
  rw [recordFails, decide_eq_true_iff, hpayload, hhigh, hlow, hpec]

end

/-- An answer that has the count asked for is received as it is (R39). -/
theorem receiveAnswer_of_length {s : State} {rx : List Byte} {n : Nat} (h : s.answer = .ok rx)
    (hlen : rx.length = n) : s.receiveAnswer n = .ok rx := by
  rw [State.receiveAnswer, h, ← hlen]
  exact congrArg Answer.ok (fitAnswer_exact rx s.draws)

/-- A chained read of what `n` devices answer: the mask has the bits of the records whose PEC is not
that of their payload, and `RXBUF` holds every payload nearest device first (R96). -/
theorem exec_rdchain_chainAnswer {s : State} {cmd : Cmd} {len : Len} {ndev : NDev}
    {ignored : List Byte} {payload : Nat → List Byte} {pec : Nat → Pec} (hr : s.tblReady = true)
    (hs : s.tableSound) (hf : s.frame.wf = true) (hb : s.rxbuf.wf = true)
    (hlen : len.toNat ≤ s.config.maxDataLen) (h1 : 1 ≤ ndev.toNat) (h8 : ndev.toNat ≤ 8)
    (hpayload : ∀ i, i < ndev.toNat → (payload i).length = len.toNat)
    (ha : s.answer = .ok ignored)
    (ha' : s.answered.answer = .ok (chainAnswer ndev.toNat payload pec)) :
    ∃ t, exec (.rdchain cmd len ndev) s = .next t ∧ t.status = statusOfMask t.errmask ∧
      (∀ p, p < 8 → (t.errmask.getLsbD p = true ↔
        p < ndev.toNat ∧ pec15 builtTable (payload p) ≠ pec p)) ∧
      ∀ i m, i < ndev.toNat → m < len.toNat →
        t.rxbuf.read (i * (len.toNat + 2) + m) = (payload i).getD m 0 := by
  obtain ⟨t, he, -, -, -, hin, -, hbits, hst⟩ := rdchainCompletes s cmd len ndev ignored _ hr hs hf hb
    hlen h1 h8 ha (receiveAnswer_of_length ha' (chainAnswer_length hpayload))
  refine ⟨t, he, hst, fun p hp => (hbits p hp).trans
    (and_congr_right (recordFails_chainAnswer hpayload)), fun i m hi hm => ?_⟩
  have hlast : (i + 1) * (len.toNat + 2) ≤ ndev.toNat * (len.toNat + 2) := Nat.mul_le_mul_right _ hi
  have hinside : i * (len.toNat + 2) + m < (len.toNat + 2) * ndev.toNat := by
    rw [Nat.succ_mul] at hlast
    rw [Nat.mul_comm _ ndev.toNat]
    omega
  rw [hin _ hinside, chainAnswer_getD_payload hpayload hi hm]

/-- A list is what its indices give one by one. -/
theorem flatMap_eq_flatMap_range {α β : Type} (l : List α) (d : α) (f : α → List β) :
    l.flatMap f = (List.range l.length).flatMap fun i => f (l.getD i d) := by
  have hl : l = (List.range l.length).map fun i => l.getD i d :=
    List.ext_getElem (by simp) fun i h _ => by simp [h]
  conv_lhs => rw [hl, List.flatMap_map]

/-- Settles O51: the devices answer whole segments, so no record fails. -/
theorem intactChainReadsOk : Obligations.IntactChainReadsOk := by
  intro s cmd len ndev ignored ds hr hs hf hb hlen h1 h8 hds hlens ha ha'
  rw [flatMap_eq_flatMap_range ds [], hds] at ha'
  have hpayload : ∀ i, i < ndev.toNat → (ds.getD i []).length = len.toNat := fun i hi => by
    rw [List.getD_eq_getElem _ _ (hds.symm ▸ hi)]
    exact hlens _ (List.getElem_mem _)
  obtain ⟨t, he, hst, hbits, hrx⟩ := exec_rdchain_chainAnswer (cmd := cmd)
    (pec := fun i => pec15 builtTable (ds.getD i [])) hr hs hf hb hlen h1 h8 hpayload ha ha'
  have hmask : t.errmask = 0 := BitVec.eq_of_getLsbD_eq fun p hp => by
    have := mt (hbits p hp).mp fun h => h.2 rfl
    simpa using this
  exact ⟨t, he, by rw [hst, hmask]; rfl, hmask, hrx⟩

theorem flipBit_length (d : List Byte) (j b : Nat) : (flipBit d j b).length = d.length :=
  List.length_set

/-- Settles O52: with O14 the record with the flipped bit fails, and no other does. -/
theorem chainedReadIsolation : Obligations.ChainedReadIsolation := by
  intro s cmd len ndev ignored ds k j b hr hs hf hb hlen h8 hlens hk hj hbit ha ha'
  have hpayload : ∀ i, i < ndev.toNat →
      (if i = k then flipBit (ds i) j b else ds i).length = len.toNat := fun i hi => by
    split
    · rw [flipBit_length, hlens i hi]
    · exact hlens i hi
  obtain ⟨t, he, hst, hbits, hrx⟩ := exec_rdchain_chainAnswer (cmd := cmd)
    (pec := fun i => pec15 builtTable (ds i)) hr hs hf hb hlen (by omega) h8 hpayload ha ha'
  have hfails (p : Nat) : (p < ndev.toNat ∧
      pec15 builtTable (if p = k then flipBit (ds p) j b else ds p) ≠ pec15 builtTable (ds p)) ↔
        p = k := by
    by_cases hp : p = k
    · subst hp
      rw [if_pos rfl]
      exact iff_of_true
        ⟨hk, singleBitChangeChangesPec (ds p) j b ((hlens p hk).symm ▸ hj) hbit⟩ rfl
    · rw [if_neg hp]
      exact iff_of_false (fun h => h.2 rfl) hp
  have hmask : t.errmask = positionFlag k := BitVec.eq_of_getLsbD_eq fun p hp => by
    rw [Bool.eq_iff_iff, hbits p hp, hfails, positionFlag_getLsbD hp]
  have hne : positionFlag k ≠ 0 := fun h => by
    have hset := (positionFlag_getLsbD (show k < 8 by omega)).mpr rfl
    simp [h] at hset
  refine ⟨t, he, by rw [hst, hmask, statusOfMask, if_neg hne], hmask, fun i m hi hik hm => ?_⟩
  rw [hrx i m hi hm, if_neg hik]

end Sys2Proof.Machine
end
